-- ==== Sys2Proof/Word.lean ====
section
/-! DEFINITION. The widths of the core's values (spec/00_scope.md rules R8, R10). Every value is an unsigned bit
vector; nothing in the core is signed. -/

namespace Sys2Proof

/-- One payload byte. -/
abbrev Byte := BitVec 8

/-- A data block: 8 bytes, 64 bits (R8 `BLOCK_BYTES`). -/
abbrev Block := BitVec 64

/-- One of the three 8-byte sub-keys K1, K2, K3 (R8 `SUBKEY_BYTES`). -/
abbrev SubKey := BitVec 64

/-- One round key (R8 `RK_BITS`); DES bit 1 is bit 47 (R86). -/
abbrev RoundKey := BitVec 48

/-- One key-schedule half, C or D (R8 `CD_BITS`). -/
abbrev KeyHalf := BitVec 28

/-- One data half, L or R (R8 `LR_BITS`). -/
abbrev DataHalf := BitVec 32

/-- One schedule: sixteen round keys, storage index j = 0 to 15 (R20, R21). -/
abbrev Schedule := Vector RoundKey 16

/-- The round-key store: three schedules (R20). Index 0 holds schedule 1. -/
abbrev Store := Vector Schedule 3

end Sys2Proof
end

