-- ==== Sys2Proof/Config.lean ====
section
/-! DEFINITION. The fixed parameters of rule R8 and the open parameters of rule R9 that the model's data depends on
(spec/00_scope.md): `LEN_MAX` and `N_PORT`, which the model takes as an argument. The others (`T_CONSTRUCT`, `T_BLOCK`,
`T_DESTROY`, `PORT`, `RESET_KIND`) are time and signals, which the model does not have (R7, R180). No value of this hardware is
left free by its spec, so there is no opaque constant. -/

namespace Sys2Proof.Config

/-- `KEY_BYTES` (R8). -/
def keyBytes : Nat := 24

/-- `BLOCK_BYTES` (R8). -/
def blockBytes : Nat := 8

/-- `SUBKEY_BYTES` (R8). -/
def subKeyBytes : Nat := 8

/-- The open parameters (R9): every definition that depends on one takes this as an argument. -/
structure Params where
  /-- `LEN_MAX`: the largest payload of a frame, in what the 8-bit field `len` can say (R61, D25). -/
  lenMax : Fin 256
  /-- `N_PORT`: the number of command ports (R50, R51, D16). -/
  nPort : Nat
  deriving DecidableEq, Repr

/-- The defaults of rule R9, at which the machine behind the host's interface runs.
DESIGN CHOICE (log 4). -/
def defaults : Params := { lenMax := 255, nPort := 1 }

end Sys2Proof.Config
end

