-- ==== Sys2Proof/Syntax.lean ====
section
/-! DEFINITION. The instructions: one constructor for each row of spec/opcode_table.json, and the three kinds of encoded
word the core knows (spec/30_encoding.md): the command frame (format C), the pass descriptor (format P) and the key-schedule
step (format K). -/

namespace Sys2Proof

/-- A schedule number s in {1, 2, 3} (R20). The reserved value 0 of a pass descriptor's `ks` field has no constructor:
the decoder refuses it (R69). -/
inductive SchedNo where
  | k1
  | k2
  | k3
  deriving DecidableEq, Repr

/-- The eight rows of the opcode table. The four commands carry their payload, whatever its length: a frame with a wrong
length is still that command, and faults as it (R63). -/
inductive Instr where
  /-- CONSTRUCT (R92): derive the three schedules from the payload. -/
  | construct (payload : List Byte)
  /-- COMPUTE (R134): EDE-encrypt the payload block. -/
  | compute (payload : List Byte)
  /-- INVERT (R135): DED-decrypt the payload block. -/
  | invert (payload : List Byte)
  /-- DESTROY (R136): zero the store. -/
  | destroy (payload : List Byte)
  /-- DES.ENC (R118): one encryption pass under schedule `ks`. -/
  | desEnc (ks : SchedNo)
  /-- DES.DEC (R119): one decryption pass under schedule `ks`. -/
  | desDec (ks : SchedNo)
  /-- KS.ROUND1 (R87): a derivation round that rotates by 1. -/
  | ksRound1
  /-- KS.ROUND2 (R88): a derivation round that rotates by 2. -/
  | ksRound2
  deriving DecidableEq, Repr

/-- A command as the model represents it (R62): the opcode and the payload; `len` is the payload's length. -/
structure Frame where
  op : Byte
  payload : List Byte
  deriving DecidableEq, Repr

/-- What a decoder of this core is given: the bytes of a command frame, header first (format C, R61), the 3 bits of a pass
descriptor (format P, R69), or the one bit of a key-schedule step (format K, R70). The controller knows which it reads. -/
inductive Encoded where
  | frame (bytes : List Byte)
  | pass (descriptor : BitVec 3)
  | keyStep (two : BitVec 1)
  deriving DecidableEq, Repr

/-- Why the decoder rejects a word. -/
inductive DecodeError where
  /-- An opcode outside 0x01 to 0x04 (R67). The core answers it with IllegalCommand. -/
  | illegalOpcode (op : Byte)
  /-- A payload longer than `LEN_MAX`: no frame can carry it (R62). -/
  | payloadTooLong (len : Nat)
  /-- Fewer bytes than the header announces; framing is reliable, so no frame is like this (R62). -/
  | truncatedFrame
  /-- Bytes left over after the frame the header announces (R61, R62). -/
  | trailingBytes
  /-- A pass descriptor with the reserved `ks = 0` (R69). -/
  | reservedSchedule
  deriving DecidableEq, Repr

end Sys2Proof
end

