-- ==== Sys2Proof/WellFormed.lean ====
section
/-! DEFINITION. Which instructions an encoding exists for. The only bound is `LEN_MAX`, the largest payload of a frame
(spec/30_encoding.md rules R61, R62), an argument (R9); every other bound is in the types. -/

namespace Sys2Proof

/-- The payload fits a frame (R62). -/
def payloadFits (payload : List Byte) (cfg : Config.Params := Config.defaults) : Bool :=
  decide (payload.length ≤ cfg.lenMax.val)

/-- An instruction has an encoding: a command when its payload fits a frame, a micro-operation always. -/
def Instr.wf (i : Instr) (cfg : Config.Params := Config.defaults) : Bool :=
  match i with
  | .construct payload => payloadFits payload cfg
  | .compute payload => payloadFits payload cfg
  | .invert payload => payloadFits payload cfg
  | .destroy payload => payloadFits payload cfg
  | .desEnc _ => true
  | .desDec _ => true
  | .ksRound1 => true
  | .ksRound2 => true

/-- `Instr.wf` as a proposition. -/
abbrev Instr.WellFormed (i : Instr) (cfg : Config.Params := Config.defaults) : Prop := i.wf cfg = true

/-- A frame that can be sent (R62). -/
def Frame.wf (f : Frame) (cfg : Config.Params := Config.defaults) : Bool := payloadFits f.payload cfg

/-- `Frame.wf` as a proposition. -/
abbrev Frame.WellFormed (f : Frame) (cfg : Config.Params := Config.defaults) : Prop := f.wf cfg = true

end Sys2Proof
end

