-- ==== Sys2Proof/Decode.lean ====
section
/-! DEFINITION. The decoder of the three formats (spec/30_encoding.md rules R61, R63, R67, R69, R70, R74), total on every
input, and after it the encoder. -/

namespace Sys2Proof

/-- The schedule a `ks` field names; the reserved value 0 names none (R69). -/
def schedOfBits (ks : BitVec 2) : Option SchedNo :=
  if ks = 1 then some .k1
  else if ks = 2 then some .k2
  else if ks = 3 then some .k3
  else none

/-- Format C, a command as a pair of opcode and payload (R62, R63, R67). The match is on the opcode alone. -/
def decodeFrame (f : Frame) (cfg : Config.Params := Config.defaults) : Except DecodeError Instr :=
  if cfg.lenMax.val < f.payload.length then .error (.payloadTooLong f.payload.length)
  else if f.op = 0x01 then .ok (.construct f.payload)
  else if f.op = 0x02 then .ok (.compute f.payload)
  else if f.op = 0x03 then .ok (.invert f.payload)
  else if f.op = 0x04 then .ok (.destroy f.payload)
  else .error (.illegalOpcode f.op)

/-- The first frame of a byte stream and the bytes after it: `op`, `len`, then `len` payload bytes (R61). -/
def parseFrame : List Byte → Except DecodeError (Frame × List Byte)
  | op :: len :: rest =>
    if rest.length < len.toNat then .error .truncatedFrame
    else .ok ({ op := op, payload := rest.take len.toNat }, rest.drop len.toNat)
  | _ => .error .truncatedFrame

/-- The bytes of exactly one frame, decoded. -/
def decodeBytes (bytes : List Byte) (cfg : Config.Params := Config.defaults) : Except DecodeError Instr :=
  match parseFrame bytes with
  | .ok (f, []) => decodeFrame f cfg
  | .ok (_, _ :: _) => .error .trailingBytes
  | .error e => .error e

/-- Format P: bit 2 is `dir`, bits 1:0 are `ks` (R69). -/
def decodePass (d : BitVec 3) : Except DecodeError Instr :=
  match schedOfBits (d.extractLsb' 0 2) with
  | some ks => .ok (if d.getLsbD 2 then .desDec ks else .desEnc ks)
  | none => .error .reservedSchedule

/-- Format K: the bit `two` (R70). -/
def decodeKeyStep (two : BitVec 1) : Instr :=
  if two = 1 then .ksRound2 else .ksRound1

/-- The decoder, total on every encoded word. -/
def decode (e : Encoded) (cfg : Config.Params := Config.defaults) : Except DecodeError Instr :=
  match e with
  | .frame bytes => decodeBytes bytes cfg
  | .pass d => decodePass d
  | .keyStep two => .ok (decodeKeyStep two)

/-- The `ks` field of a schedule number (R69). -/
def SchedNo.bits : SchedNo → BitVec 2
  | .k1 => 1
  | .k2 => 2
  | .k3 => 3

/-- A command's frame as bytes: `op`, `len`, payload, first byte first (R61). -/
def Frame.bytes (f : Frame) : List Byte :=
  f.op :: BitVec.ofNat 8 f.payload.length :: f.payload

/-- The encoder (R61, R63, R69, R70). -/
def encode : Instr → Encoded
  | .construct payload => .frame (Frame.bytes { op := 0x01, payload := payload })
  | .compute payload => .frame (Frame.bytes { op := 0x02, payload := payload })
  | .invert payload => .frame (Frame.bytes { op := 0x03, payload := payload })
  | .destroy payload => .frame (Frame.bytes { op := 0x04, payload := payload })
  | .desEnc ks => .pass ((0 : BitVec 1) ++ ks.bits)
  | .desDec ks => .pass ((1 : BitVec 1) ++ ks.bits)
  | .ksRound1 => .keyStep 0
  | .ksRound2 => .keyStep 1

/-- The bytes of the command frame whose header is the low 16 bits of `w` (`op` in bits 15:8, `len` in bits 7:0, R61)
and whose payload byte k is bits 8k+23 : 8k+16 of `w`, as the opcode table numbers bits. -/
def tableFrameBytes (w : Nat) : List Byte :=
  BitVec.ofNat 8 (w / 256) :: BitVec.ofNat 8 w ::
    (List.range (w % 256)).map (fun k => BitVec.ofNat 8 (w >>> (16 + 8 * k)))

/-- The encoded word that the number `w` of `nbits` bits stands for. The table's widths tell the format: 16 (format C), 3
(format P), 1 (format K). A width of 8 is a 3-bit or 1-bit row in whole bytes, where the number alone does not tell the
formats apart: 0 and 1 are read as format K, every other number as format P.
DESIGN CHOICE (log 10). -/
def tableEncoded (nbits w : Nat) : Option Encoded :=
  if nbits = 1 then some (.keyStep (BitVec.ofNat 1 w))
  else if nbits = 3 then some (.pass (BitVec.ofNat 3 w))
  else if nbits = 8 then
    if w < 2 then some (.keyStep (BitVec.ofNat 1 w))
    else if w < 8 then some (.pass (BitVec.ofNat 3 w))
    else none
  else if 16 ≤ nbits then some (.frame (tableFrameBytes (w % 2 ^ nbits)))
  else none

/-- The instruction the decoder reads from the number `w` of `nbits` bits, numbered as the opcode table numbers them. -/
def decodeTableWord (nbits w : Nat) : Option Instr :=
  match tableEncoded nbits w with
  | some e => (decode e).toOption
  | none => none

end Sys2Proof
end

