-- ==== Sys2Proof/Machine/Bits.lean ====
section
/-! DEFINITION. The notation of spec/00_scope.md section 5: DES bit numbering (R11), bytes to values (R12), bit permutation
(R13), rotation of a key half (R14). -/

namespace Sys2Proof.Machine

/-- `dbit_W(v, i)`: DES bit i of a W-bit value, numbered 1 to W from the most significant end (R11). -/
def dbit {w : Nat} (v : BitVec w) (i : Nat) : Bool := v.getLsbD (w - i)

/-- The number whose binary digits are `bits`, most significant first. -/
def natOfBits (bits : List Bool) : Nat := bits.foldl (fun acc b => 2 * acc + b.toNat) 0

/-- `permute_W(v, T)` with an n-bit result: output DES bit k is input DES bit `T[k]` (R13). -/
def permute {w : Nat} (n : Nat) (table : List Nat) (v : BitVec w) : BitVec n :=
  BitVec.ofNat n (natOfBits (table.map (dbit v)))

/-- `rotl28(v, s)` (R14). -/
def rotl28 (v : KeyHalf) (s : Nat) : KeyHalf := (v <<< s) ||| (v >>> (28 - s))

/-- `be(b_0, ..., b_(m-1))` as a number: the first byte is the most significant (R12). -/
def be (bytes : List Byte) : Nat := bytes.foldl (fun acc b => 256 * acc + b.toNat) 0

/-- `byte_k(v)` of a block, counted from the most significant byte (R12). -/
def byteOfBlock (k : Nat) (v : Block) : Byte := v.extractLsb' (8 * (7 - k)) 8

/-- The eight bytes of a block, `byte_0` first (R12, R16). -/
def bytesOfBlock (v : Block) : List Byte := (List.range 8).map (fun k => byteOfBlock k v)

end Sys2Proof.Machine
end

