-- ==== Sys2Proof/Machine/State.lean ====
section
/-! DEFINITION. The state: every register, counter and buffer of spec/10_state.md (rules R20 to R36) and the two channels of
spec/30_encoding.md (R60), as plain data; the state after reset (R35); the reasons a step can stop. -/

namespace Sys2Proof.Machine

/-- The lifecycle register `LC`, one bit: EMPTY = 0, USABLE = 1 (R24). -/
inductive Lifecycle where
  | empty
  | usable
  deriving DecidableEq, Repr

/-- A command that is executing: one that runs micro-operations. DESTROY runs none (R136). -/
inductive Job where
  | construct
  | compute
  | invert
  deriving DecidableEq, Repr

/-- The five fault kinds of a command (R150). They are answers to the host, not stops of the machine. -/
inductive FaultKind where
  | invalidKeyLength
  | invalidInputLength
  | notUsable
  | alreadyConstructed
  | illegalCommand
  deriving DecidableEq, Repr

/-- A response frame, format S (R64); `len` is the payload's length. The payload is the space `OUT` (R30, R42). -/
structure Response where
  status : Byte
  payload : List Byte
  deriving DecidableEq, Repr

/-- What the host does to the core, one event at a time (R176, R177). -/
inductive HostEvent where
  /-- A command frame on the command channel (R60). -/
  | frame (f : Frame)
  /-- The reset input (R170). -/
  | reset
  /-- A command frame that is accepted, and reset asserted before its response: the abandoned command (R171). -/
  | cutFrame (f : Frame)
  deriving DecidableEq, Repr

/-- The whole machine. Persistent between commands: `lc` and `rk` (R36). The transient registers `p` to `inBuf` are zero
between commands (R26, R27) and hold the position and data of a command while one executes (`busy`). -/
structure State where
  /-- `LC` (R24). -/
  lc : Lifecycle
  /-- `RK[s][j]`, word j of schedule s at `rk[s-1][j]` (R20). -/
  rk : Store
  /-- The command in execution; while there is one, no frame is accepted (R65). -/
  busy : Option Job
  /-- `p`: pass number, or schedule number minus one within CONSTRUCT (R26). -/
  p : BitVec 2
  /-- `n`: rounds done in the pass or derivation (R26, D23). -/
  n : BitVec 5
  /-- `C` (R26). -/
  c : KeyHalf
  /-- `D` (R26). -/
  d : KeyHalf
  /-- `L` (R26). -/
  l : DataHalf
  /-- `R` (R26). -/
  r : DataHalf
  /-- `BLK`: the block between passes (R26). -/
  blk : Block
  /-- The payload buffer, space `IN` (R27, R30). -/
  inBuf : List Byte
  /-- The response channel: the frame being emitted, `none` when idle (R35, R60). -/
  resp : Option Response
  /-- The command channel and the reset input: what the host does next, first event first (R60, R65, R177). -/
  inbox : List HostEvent
  /-- The responses the host has taken, first response first (R60, R176, R177). -/
  sent : List Response
  deriving DecidableEq, Repr

/-- Why the machine stops. No state that a run from reset reaches stops here. -/
inductive Fault where
  /-- Raised by KS.ROUND1 and KS.ROUND2 when `p` or `n` is past the end of a schedule: the store has no such word (R43).
  Safe: the controller never brings a derivation there (R92). -/
  | noSuchRoundKeyWord
  /-- Raised by the step when `(p, n)` is past the end of the executing command's micro-operations (R132). Safe: no command
  brings the sequencer there. -/
  | sequencerPastEnd
  deriving DecidableEq, Repr

/-- Why a step has no meaning. -/
inductive Refusal where
  /-- An instruction of the table without a meaning yet: none. Raised by no definition. Safe. -/
  | notModelled (mnemonic : String)
  /-- Raised by the step on a frame whose payload exceeds `LEN_MAX`: it cannot be framed, and the host must refuse it itself
  (R62, U7). Safe. -/
  | unframablePayload
  /-- Raised by the step on a micro-operation that does not decode; the descriptors of the controller all do (R69, R131).
  Safe: never raised. -/
  | undecodableMicroOp
  deriving DecidableEq, Repr

/-- The state after reset (R35): EMPTY, a zero store, zero transients, an idle response channel; the host has done nothing
yet. -/
def State.reset : State where
  lc := .empty
  rk := Vector.replicate 3 (Vector.replicate 16 0)
  busy := none
  p := 0
  n := 0
  c := 0
  d := 0
  l := 0
  r := 0
  blk := 0
  inBuf := []
  resp := none
  inbox := []
  sent := []

end Sys2Proof.Machine
end

