-- ==== Sys2Proof/Machine/Flags.lean ====
section
/-! DEFINITION. The core has no flags (spec/10_state.md rule R28): the result of a command is wholly in its response. This file holds
what stands in their place, the status codes (spec/60_exceptions.md rule R150). -/

namespace Sys2Proof.Machine

/-- The status of a command without a fault (R64, R150). -/
def statusOk : Byte := 0x00

/-- The status code of a fault kind (R150). -/
def faultCode : FaultKind → Byte
  | .invalidKeyLength => 0x01
  | .invalidInputLength => 0x02
  | .notUsable => 0x03
  | .alreadyConstructed => 0x04
  | .illegalCommand => 0x05

/-- The value of the register `LC` (R24). -/
def lifecycleBit : Lifecycle → BitVec 1
  | .empty => 0
  | .usable => 1

end Sys2Proof.Machine
end

