-- ==== Sys2Proof/Machine/Ops.lean ====
section
/-! DEFINITION. The named operations over the state: the store, the end of a command (OK or fault), reset, and the delivery of a
response. A command's fault is the core's one exception: `raise` is its entry, and there is no return (spec/60_exceptions.md rules
R157, R158). -/

namespace Sys2Proof.Machine

/-- A step's outcome. -/
abbrev Outcome := Host.Outcome State Fault Refusal

/-- `f` applied to the next state, where there is one. -/
def mapNext (f : State → State) : Outcome → Outcome
  | .next s => .next (f s)
  | .fault e => .fault e
  | .refused e => .refused e

/-- The position of schedule s in the store. -/
def schedIndex : SchedNo → Fin 3
  | .k1 => 0
  | .k2 => 1
  | .k3 => 2

/-- The sixteen words of schedule s (R20). -/
def schedule (rk : Store) (s : SchedNo) : Schedule := rk[schedIndex s]

/-- `RK[s][j]` (R15). -/
def readRk (s : State) (ks : SchedNo) (j : Fin 16) : RoundKey := (schedule s.rk ks)[j]

/-- `RK[s][j] <- v` (R15). -/
def writeRk (ks : SchedNo) (j : Fin 16) (v : RoundKey) (s : State) : State :=
  { s with rk := s.rk.set (schedIndex ks) ((schedule s.rk ks).set j v) }

/-- The linear address of `RK[s][j]`, 0 to 47 (R43). -/
def rkAddress (ks : SchedNo) (j : Fin 16) : Nat := 16 * (schedIndex ks).val + j.val

/-- The word at a linear address, `none` where the store has no word (R43). -/
def readRkAt (s : State) (a : Nat) : Option RoundKey :=
  if h : a < 48 then some (s.rk[a / 16])[a % 16] else none

/-- The store of 48 zero words (R35, R136). -/
def zeroStore : Store := Vector.replicate 3 (Vector.replicate 16 0)

/-- Clear every transient register and payload buffer; the command is over (R27). -/
def clearTransients (s : State) : State :=
  { s with busy := none, p := 0, n := 0, c := 0, d := 0, l := 0, r := 0, blk := 0, inBuf := [] }

/-- `respond OK(out)`: the end of a successful command (R17, R27, R64). -/
def respondOk (out : List Byte) (s : State) : State :=
  { clearTransients s with resp := some { status := statusOk, payload := out } }

/-- `raise kind`: the end of a faulting command. Nothing persistent changes; the response carries the code only (R17, R157). -/
def raise (kind : FaultKind) (s : State) : State :=
  { clearTransients s with resp := some { status := faultCode kind, payload := [] } }

/-- Drop the Engine: a zero store, EMPTY (R136, R170). -/
def dropEngine (s : State) : State := { s with lc := .empty, rk := zeroStore }

/-- The reset input: drop the Engine, clear the transients, no response pending (R35, R170). What the host holds back on the
command channel and what it has taken are the host's, and stay. -/
def assertReset (s : State) : State := { clearTransients (dropEngine s) with resp := none }

/-- The host takes the emitted response (R60, R176). -/
def deliver (s : State) : State :=
  match s.resp with
  | some r => { s with resp := none, sent := s.sent ++ [r] }
  | none => s

/-- The answer to a frame the decoder rejects (R62, R67): IllegalCommand for an opcode that selects no command, a refusal for
what cannot be framed. -/
def answerUndecodable (e : DecodeError) (s : State) : Outcome :=
  match e with
  | .illegalOpcode _ => .next (raise .illegalCommand s)
  | .payloadTooLong _ => .refused .unframablePayload
  | .truncatedFrame => .refused .unframablePayload
  | .trailingBytes => .refused .unframablePayload
  | .reservedSchedule => .refused .undecodableMicroOp

/-- A response as the bytes of its frame: `status`, `len`, payload (R64). -/
def responseBytes (r : Response) : List Byte :=
  r.status :: BitVec.ofNat 8 r.payload.length :: r.payload

end Sys2Proof.Machine
end

