-- ==== Sys2Proof/Machine/Operands.lean ====
section
/-! DEFINITION. Operand assembly (spec/30_encoding.md rule R66, spec/20_memory.md rules R41, R42, R45): the only operand of a command is its
payload, read by `MemRead`. -/

namespace Sys2Proof.Machine

/-- `MemRead(IN, a, 8)` as a 64-bit value (R16). -/
def memRead8 (bytes : List Byte) (a : Nat) : BitVec 64 :=
  BitVec.ofNat 64 (be ((bytes.drop a).take 8))

/-- The sub-key of schedule s: payload bytes 8(s-1) to 8(s-1)+7 (R41). -/
def subKey (bytes : List Byte) (ks : SchedNo) : SubKey := memRead8 bytes (8 * (schedIndex ks).val)

/-- The block of a COMPUTE or INVERT payload (R42). -/
def inputBlock (bytes : List Byte) : Block := memRead8 bytes 0

end Sys2Proof.Machine
end

