-- ==== Sys2Proof/Machine/BlockTransform.lean ====
section
/-! DEFINITION. The DES block-transform pipeline (spec/41_blocktransform.md): the permutation networks, the S-boxes, F, the rounds, DES.ENC and
DES.DEC. -/

namespace Sys2Proof.Machine

/-- The initial permutation (R101). -/
def ip (b : Block) : BitVec 64 := permute 64 ipTable b

/-- The final permutation (R102). -/
def fp (b : BitVec 64) : Block := permute 64 fpTable b

/-- The expansion E (R105). -/
def expand (r : DataHalf) : BitVec 48 := permute 48 eTable r

/-- The row of a 6-bit group: its two outer bits (R114). -/
def sboxRow (g : BitVec 6) : Nat := 2 * (g.getLsbD 5).toNat + (g.getLsbD 0).toNat

/-- The column of a 6-bit group: its four inner bits (R114). -/
def sboxCol (g : BitVec 6) : Nat := (g.extractLsb' 1 4).toNat

/-- The output of an S-box (R114). -/
def sboxLookup (table : List (List Nat)) (g : BitVec 6) : BitVec 4 :=
  BitVec.ofNat 4 ((table.getD (sboxRow g) []).getD (sboxCol g) 0)

/-- `G_k`, k = 1 to 8: the k-th 6-bit group from the top (R114). -/
def sextet (x : BitVec 48) (k : Nat) : BitVec 6 := x.extractLsb' (42 - 6 * (k - 1)) 6

/-- The eight S-boxes on their groups, outputs concatenated, S1's in the top four bits (R114). -/
def substitute (x : BitVec 48) : BitVec 32 :=
  sboxLookup sbox1 (sextet x 1) ++ sboxLookup sbox2 (sextet x 2) ++ sboxLookup sbox3 (sextet x 3) ++
  sboxLookup sbox4 (sextet x 4) ++ sboxLookup sbox5 (sextet x 5) ++ sboxLookup sbox6 (sextet x 6) ++
  sboxLookup sbox7 (sextet x 7) ++ sboxLookup sbox8 (sextet x 8)

/-- The permutation P (R115). -/
def permuteP (y : BitVec 32) : BitVec 32 := permute 32 pTable y

/-- The round function F (R116). -/
def roundF (r : DataHalf) (k : RoundKey) : DataHalf := permuteP (substitute (expand r ^^^ k))

/-- The two halves L, R of a pass. -/
abbrev Halves := DataHalf × DataHalf

/-- One Feistel round (R117). -/
def feistel (h : Halves) (k : RoundKey) : Halves := (h.2, h.1 ^^^ roundF h.2 k)

/-- `L_0`, `R_0` (R101). -/
def initialHalves (b : Block) : Halves := ((ip b).extractLsb' 32 32, (ip b).extractLsb' 0 32)

/-- The rounds of a pass, one per key, in order: `L_16`, `R_16` for sixteen keys (R117). -/
def rounds (keys : List RoundKey) (b : Block) : Halves := keys.foldl feistel (initialHalves b)

/-- The end of a pass: swap, then FP (R117). -/
def finishPass (h : Halves) : Block := fp (h.2 ++ h.1)

/-- The round keys in encryption order, word 0 first (R118). -/
def encKeys (sched : Schedule) : List RoundKey := sched.toList

/-- The round keys in decryption order, word 15 first (R119). -/
def decKeys (sched : Schedule) : List RoundKey := sched.toList.reverse

/-- DES.ENC as a function of the sixteen words and the block (R118). -/
def desEncrypt (sched : Schedule) (b : Block) : Block := finishPass (rounds (encKeys sched) b)

/-- DES.DEC as a function of the sixteen words and the block (R119). -/
def desDecrypt (sched : Schedule) (b : Block) : Block := finishPass (rounds (decKeys sched) b)

/-- One pass on `BLK`: the halves and the round counter run through the sixteen rounds, and the result goes back to `BLK`
(R117, R132). -/
def runPass (keys : List RoundKey) (s : State) : State :=
  { s with l := (rounds keys s.blk).1, r := (rounds keys s.blk).2, n := 16,
           blk := finishPass (rounds keys s.blk) }

/-- DES.ENC (R118). -/
def execDesEnc (ks : SchedNo) (s : State) : Outcome := .next (runPass (encKeys (schedule s.rk ks)) s)

/-- DES.DEC (R119). -/
def execDesDec (ks : SchedNo) (s : State) : Outcome := .next (runPass (decKeys (schedule s.rk ks)) s)

end Sys2Proof.Machine
end

