-- ==== Sys2Proof/Machine/Controller.lean ====
section
/-! DEFINITION. The EDE composition controller (spec/42_ede_controller.md): COMPUTE, INVERT, DESTROY. -/

namespace Sys2Proof.Machine

/-- `E_K3(D_K2(E_K1(x)))` over the store (R134). -/
def computeBlock (rk : Store) (b : Block) : Block :=
  desEncrypt (schedule rk .k3) (desDecrypt (schedule rk .k2) (desEncrypt (schedule rk .k1) b))

/-- `D_K1(E_K2(D_K3(x)))` over the store (R135). -/
def invertBlock (rk : Store) (b : Block) : Block :=
  desDecrypt (schedule rk .k1) (desEncrypt (schedule rk .k2) (desDecrypt (schedule rk .k3) b))

/-- A data command: lifecycle check, length check, then the transform of the payload block (R133). -/
def dataCommand (transform : Store → Block → Block) (payload : List Byte) (s : State) : Outcome :=
  if s.lc = .empty then .next (raise .notUsable s)
  else if payload.length ≠ Config.blockBytes then .next (raise .invalidInputLength s)
  else .next (respondOk (bytesOfBlock (transform s.rk (inputBlock payload))) s)

/-- COMPUTE (R134). -/
def execCompute (payload : List Byte) (s : State) : Outcome := dataCommand computeBlock payload s

/-- INVERT (R135). -/
def execInvert (payload : List Byte) (s : State) : Outcome := dataCommand invertBlock payload s

/-- DESTROY (R136). -/
def execDestroy (payload : List Byte) (s : State) : Outcome :=
  if payload.length ≠ 0 then .next (raise .illegalCommand s)
  else .next (respondOk [] (dropEngine s))

end Sys2Proof.Machine
end

