-- ==== Sys2Proof/Machine/KeySchedule.lean ====
section
/-! DEFINITION. The key scheduler (spec/40_keyschedule.md): KS.ROUND1, KS.ROUND2, KS.DERIVE, CONSTRUCT. -/

namespace Sys2Proof.Machine

/-- KS.PC1 (R81). -/
def pc1 (k : SubKey) : BitVec 56 := permute 56 pc1Table k

/-- `C_0` (R82). -/
def initialC (k : SubKey) : KeyHalf := (pc1 k).extractLsb' 28 28

/-- `D_0` (R82). -/
def initialD (k : SubKey) : KeyHalf := (pc1 k).extractLsb' 0 28

/-- KS.PC2 (R85). -/
def pc2 (c d : KeyHalf) : RoundKey := permute 48 pc2Table (c ++ d)

/-- The rounds of a derivation: rotate both halves, then select, for each amount in turn (R87 to R90). -/
def ksRounds : List Nat → KeyHalf → KeyHalf → List RoundKey
  | [], _, _ => []
  | amount :: rest, c, d =>
    pc2 (rotl28 c amount) (rotl28 d amount) :: ksRounds rest (rotl28 c amount) (rotl28 d amount)

theorem ksRounds_length (amounts : List Nat) (c d : KeyHalf) :
    (ksRounds amounts c d).length = amounts.length := by
  induction amounts generalizing c d with
  | nil => rfl
  | cons a rest ih => simp [ksRounds, ih]

/-- `KS(K)`, the sixteen round keys of a sub-key (R90). -/
def ksDerive (k : SubKey) : Schedule :=
  ⟨(ksRounds shiftTable (initialC k) (initialD k)).toArray, by
    rw [List.size_toArray, ksRounds_length]; rfl⟩

/-- The store CONSTRUCT writes: schedule s from sub-key Ks (R92). -/
def deriveStore (key : List Byte) : Store :=
  #v[ksDerive (subKey key .k1), ksDerive (subKey key .k2), ksDerive (subKey key .k3)]

/-- The schedule the sequencer works on, s = p + 1 (R26). -/
def schedOfPosition (p : BitVec 2) : Option SchedNo :=
  if p = 0 then some .k1
  else if p = 1 then some .k2
  else if p = 2 then some .k3
  else none

/-- One derivation round at position (p, n): it is round i = n + 1 of schedule p + 1. Rotate C and D, then write
`RK[s][i-1]` (R87, R88, R89). Past the last word of the store it faults: there is no such word (R43). -/
def ksRound (amount : Nat) (s : State) : Outcome :=
  match schedOfPosition s.p with
  | some ks =>
    if h : s.n.toNat < 16 then
      let c := rotl28 s.c amount
      let d := rotl28 s.d amount
      .next (writeRk ks ⟨s.n.toNat, h⟩ (pc2 c d) { s with c := c, d := d })
    else .fault .noSuchRoundKeyWord
  | none => .fault .noSuchRoundKeyWord

/-- KS.ROUND1 (R87). -/
def execKsRound1 (s : State) : Outcome := ksRound 1 s

/-- KS.ROUND2 (R88). -/
def execKsRound2 (s : State) : Outcome := ksRound 2 s

/-- CONSTRUCT (R92): lifecycle check, length check, three derivations, USABLE. -/
def execConstruct (payload : List Byte) (s : State) : Outcome :=
  if s.lc = .usable then .next (raise .alreadyConstructed s)
  else if payload.length ≠ Config.keyBytes then .next (raise .invalidKeyLength s)
  else .next (respondOk [] { s with rk := deriveStore payload, lc := .usable })

end Sys2Proof.Machine
end

