-- ==== Sys2Proof/Machine/Sequencer.lean ====
section
/-! DEFINITION. The sequencer inside a command (spec/10_state.md rule R26, spec/42_ede_controller.md rules R130 to R132): the state in which a
command begins its micro-operations, the micro-operation at position (p, n), and the advance after it. A command as the host
sees it is one atomic step (R47, R50); these definitions say what goes on inside it, and the step runs them one by one in a state
in which a command is in execution. -/

namespace Sys2Proof.Machine

/-- Begin the derivation of the schedule at position p: C and D from its sub-key (R81, R82, R90). -/
def loadSubKey (ks : SchedNo) (s : State) : State :=
  { s with c := initialC (subKey s.inBuf ks), d := initialD (subKey s.inBuf ks) }

/-- The state in which a command, its checks passed, starts: payload in the buffer, position (0, 0), its first operand loaded
(R92, R132). -/
def accept (job : Job) (payload : List Byte) (s : State) : State :=
  match job with
  | .construct => loadSubKey .k1 { s with busy := some .construct, inBuf := payload, p := 0, n := 0 }
  | .compute => { s with busy := some .compute, inBuf := payload, blk := inputBlock payload, p := 0, n := 0 }
  | .invert => { s with busy := some .invert, inBuf := payload, blk := inputBlock payload, p := 0, n := 0 }

/-- The micro-operation at position (p, n): the bit of the shift word for round n + 1, or the pass descriptor of pass p
(R70, R131, R132). -/
def microFetch (job : Job) (p : BitVec 2) (n : BitVec 5) : Option Encoded :=
  match job with
  | .construct =>
    if p.toNat < 3 ∧ n.toNat < 16 then
      some (.keyStep (shiftWord.extractLsb' (15 - n.toNat) 1))
    else none
  | .compute => (passCompute[p.toNat]?).map .pass
  | .invert => (passInvert[p.toNat]?).map .pass

/-- The end of a CONSTRUCT whose derivations are done (R92). -/
def finishConstruct (s : State) : State := respondOk [] { s with lc := .usable }

/-- The end of a COMPUTE or INVERT whose passes are done (R134, R135). -/
def finishTransform (s : State) : State := respondOk (bytesOfBlock s.blk) s

/-- After a derivation round: the next round, or the next schedule, or the end (R90, R92). -/
def advanceDerivation (s : State) : State :=
  if s.n = 15 then
    if s.p = 0 then loadSubKey .k2 { s with p := 1, n := 0 }
    else if s.p = 1 then loadSubKey .k3 { s with p := 2, n := 0 }
    else finishConstruct s
  else { s with n := s.n + 1 }

/-- After a pass: the next pass, or the end (R132). -/
def advancePass (s : State) : State :=
  if s.p = 2 then finishTransform s else { s with p := s.p + 1, n := 0 }

/-- After a micro-operation of a command. -/
def advance (job : Job) (s : State) : State :=
  match job with
  | .construct => advanceDerivation s
  | .compute => advancePass s
  | .invert => advancePass s

/-- A position whose micro-operation is the given word: where a program counter would have to stand for the sequencer to
fetch it. -/
def siteOf : Encoded → Option (Job × BitVec 2 × BitVec 5)
  | .frame _ => none
  | .keyStep two => some (.construct, 0, if two = 1 then 2 else 0)
  | .pass d =>
    if d = 0b001 then some (.compute, 0, 0)
    else if d = 0b110 then some (.compute, 1, 0)
    else if d = 0b011 then some (.compute, 2, 0)
    else if d = 0b111 then some (.invert, 0, 0)
    else if d = 0b010 then some (.invert, 1, 0)
    else if d = 0b101 then some (.invert, 2, 0)
    else none

/-- Whether an event is the reset input. -/
def isReset : HostEvent → Bool
  | .frame _ => false
  | .reset => true
  | .cutFrame _ => false

/-- `s` with an encoded word where the step fetches next: a frame first on the command channel of an idle core, a
micro-operation at the sequencer position that selects it, with no reset before it. -/
def placeNext (e : Encoded) (s : State) : State :=
  match e with
  | .frame bytes =>
    match parseFrame bytes with
    | .ok (f, _) => { s with busy := none, inbox := .frame f :: s.inbox }
    | .error _ => s
  | .pass d =>
    match siteOf (.pass d) with
    | some (job, p, n) => { s with busy := some job, p := p, n := n, inbox := s.inbox.dropWhile isReset }
    | none => s
  | .keyStep two =>
    match siteOf (.keyStep two) with
    | some (job, p, n) => { s with busy := some job, p := p, n := n, inbox := s.inbox.dropWhile isReset }
    | none => s

end Sys2Proof.Machine
end

