-- ==== Sys2Proof/Machine/Dispatch.lean ====
section
/-! DEFINITION. The meaning of every instruction: one arm per constructor of Instr, in the order of spec/opcode_table.json. -/

namespace Sys2Proof.Machine

def exec (i : Instr) (s : State) : Host.Outcome State Fault Refusal :=
  match i with
  | .construct payload => Sys2Proof.Machine.execConstruct payload s
  | .compute payload => Sys2Proof.Machine.execCompute payload s
  | .invert payload => Sys2Proof.Machine.execInvert payload s
  | .destroy payload => Sys2Proof.Machine.execDestroy payload s
  | .desEnc ks => Sys2Proof.Machine.execDesEnc ks s
  | .desDec ks => Sys2Proof.Machine.execDesDec ks s
  | .ksRound1 => Sys2Proof.Machine.execKsRound1 s
  | .ksRound2 => Sys2Proof.Machine.execKsRound2 s

end Sys2Proof.Machine
end

