-- ==== Sys2Proof/Machine/Events.lean ====
section
/-! DEFINITION. What one step does (spec/42_ede_controller.md rule R141, spec/70_reset_and_hazards.md rules R170, R171, R176, R177): one
event of the host, taken to completion; or, in a state in which a command is in execution, that command's next
micro-operation; or, with nothing to do, nothing. -/

namespace Sys2Proof.Machine

/-- A command frame (R50, R60, R141): decode, execute to completion, emit the one response. -/
def stepFrame (f : Frame) (s : State) (cfg : Config.Params := Config.defaults) : Outcome :=
  match decodeFrame f cfg with
  | .ok i => mapNext deliver (exec i s)
  | .error e => mapNext deliver (answerUndecodable e s)

/-- A frame that reset cuts short: no response, the reset state (R171). -/
def stepCutFrame (f : Frame) (s : State) (cfg : Config.Params := Config.defaults) : Outcome :=
  if f.wf cfg then .next (assertReset s) else .refused .unframablePayload

/-- The next micro-operation of the command in execution (R132). -/
def stepMicro (job : Job) (s : State) : Outcome :=
  match microFetch job s.p s.n with
  | some e =>
    match decode e with
    | .ok i => mapNext (fun t => deliver (advance job t)) (exec i s)
    | .error _ => .refused .undecodableMicroOp
  | none => .fault .sequencerPastEnd

/-- One step, for any values of the open parameters (R9). Reset comes first: it is asynchronous (R170).
While a command is in execution no frame is accepted (R65). -/
def stepWith (cfg : Config.Params) (s : State) : Outcome :=
  match s.busy, s.inbox with
  | _, .reset :: rest => .next (assertReset { s with inbox := rest })
  | some job, _ => stepMicro job s
  | none, .frame f :: rest => stepFrame f { s with inbox := rest } cfg
  | none, .cutFrame f :: rest => stepCutFrame f { s with inbox := rest } cfg
  | none, [] => .next s

end Sys2Proof.Machine
end

