-- ==== Sys2Proof/Machine/Step.lean ====
section
/-! DEFINITION. One step of the machine behind the host's interface, and the instruction placed where it fetches next. -/

namespace Sys2Proof.Machine

/-- One step, at the defaults of the open parameters (R9; log 4). -/
def step (s : State) : Host.Outcome State Fault Refusal := stepWith Config.defaults s

/-- `s` with the instruction of the table word placed where the step fetches next (log 10). -/
def State.withFetchWord (s : State) (nbits w : Nat) : State :=
  match tableEncoded nbits w with
  | some e => placeNext e s
  | none => s

end Sys2Proof.Machine
end

