-- ==== Sys2Proof/Machine/Ports.lean ====
section
/-! DEFINITION. The parameter `N_PORT` (spec/00_scope.md rule R9): a core with several command ports behaves as some interleaving of
its ports' frame sequences, executed by the one-port machine (spec/20_memory.md rules R50, R51; spec/60_exceptions.md rule R168).
`arbitrate` is the arbiter that serialises them. Which port is served when is not fixed by the spec: it is the list of grants, an
argument. -/

namespace Sys2Proof.Machine

/-- What the arbiter lets happen next: the next frame of a port, the reset input, or the next frame of a port with reset
asserted before its response (R51, R170, R171). -/
inductive Grant (n : Nat) where
  | port (i : Fin n)
  | reset
  | cut (i : Fin n)
  deriving DecidableEq, Repr

/-- The frames held at each of the `N_PORT` ports, first frame first. -/
abbrev Ports (cfg : Config.Params) := Vector (List Frame) cfg.nPort

/-- The next frame of a port, and the ports without it; nothing where the port holds none. -/
def takeFrom {n : Nat} (i : Fin n) (ports : Vector (List Frame) n) : Option (Frame × Vector (List Frame) n) :=
  match ports[i] with
  | [] => none
  | f :: rest => some (f, ports.set i rest)

/-- The one event sequence of a list of grants, which serves every port to its end: nothing where a granted port holds no
frame, or where frames are left over (R50, R51). -/
def arbitrate {n : Nat} : List (Grant n) → Vector (List Frame) n → Option (List HostEvent)
  | [], ports => if ports.toList.all List.isEmpty then some [] else none
  | .port i :: order, ports =>
    match takeFrom i ports with
    | some (f, ports') => (arbitrate order ports').map (.frame f :: ·)
    | none => none
  | .reset :: order, ports => (arbitrate order ports).map (.reset :: ·)
  | .cut i :: order, ports =>
    match takeFrom i ports with
    | some (f, ports') => (arbitrate order ports').map (.cutFrame f :: ·)
    | none => none

/-- `k` steps for any values of the open parameters, stopping at the first fault or refusal. -/
def runWith (cfg : Config.Params) : Nat → State → Outcome
  | 0, s => .next s
  | k + 1, s =>
    match stepWith cfg s with
    | .next t => runWith cfg k t
    | .fault e => .fault e
    | .refused e => .refused e

/-- A core with `N_PORT` ports: one step of the one-port machine for each granted event (R51). -/
def runPorts (cfg : Config.Params) (order : List (Grant cfg.nPort)) (ports : Ports cfg) (s : State) : Option Outcome :=
  (arbitrate order ports).map (fun events => runWith cfg events.length { s with inbox := events })

/-- The responses that go to port `i`, among the responses to a list of grants: each served frame has one, in order, and a
reset or a frame cut short has none (R60, R171). -/
def responsesOf {n : Nat} (i : Fin n) : List (Grant n) → List Response → List Response
  | [], _ => []
  | .port _ :: _, [] => []
  | .port j :: order, r :: rest => if j = i then r :: responsesOf i order rest else responsesOf i order rest
  | .reset :: order, rs => responsesOf i order rs
  | .cut _ :: order, rs => responsesOf i order rs

end Sys2Proof.Machine
end

