-- ==== Sys2Proof/Safety.lean ====
section
/-! DEFINITION. What the claims call a good state of the core, and the terms they are stated in. -/

namespace Sys2Proof.Machine

/-- Between commands: no command in execution, every transient register zero, the response channel idle (R26, R27, R35). -/
structure State.Quiet (s : State) : Prop where
  busy : s.busy = none
  p : s.p = 0
  n : s.n = 0
  c : s.c = 0
  d : s.d = 0
  l : s.l = 0
  r : s.r = 0
  blk : s.blk = 0
  inBuf : s.inBuf = []
  resp : s.resp = none

/-- The store invariant (R23): EMPTY with a zero store, or USABLE with the store of some 24-byte key. -/
def State.StoreOk (s : State) : Prop :=
  (s.lc = .empty ∧ ∀ ks j, readRk s ks j = 0) ∨
  (s.lc = .usable ∧ ∃ key : List Byte, key.length = 24 ∧ ∀ ks j, readRk s ks j = (ksDerive (subKey key ks))[j])

/-- The invariant of a state between commands (R23, R27, R36). -/
structure State.Inv (s : State) : Prop where
  quiet : s.Quiet
  store : s.StoreOk

/-- The next thing to happen to an idle core is a frame that can be framed (R50, R62). -/
structure State.NextFrame (s : State) (f : Frame) (rest : List HostEvent) : Prop where
  idle : s.busy = none
  inbox : s.inbox = .frame f :: rest
  wf : f.WellFormed

/-- `s` at the end of a command that answered `resp`: nothing else changed, every transient register is zero (R27). -/
def State.ended (s : State) (resp : Option Response) : State :=
  { lc := s.lc, rk := s.rk, busy := none, p := 0, n := 0, c := 0, d := 0, l := 0, r := 0, blk := 0, inBuf := [],
    resp := resp, inbox := s.inbox, sent := s.sent }

/-- An event that the host can bring about: a reset, or a frame that can be framed (R62, R176). -/
def HostEvent.Possible (ev : HostEvent) (cfg : Config.Params := Config.defaults) : Prop :=
  match ev with
  | .frame f => f.WellFormed cfg
  | .reset => True
  | .cutFrame f => f.WellFormed cfg

/-- The status a frame is answered with, by the order of the checks: opcode, lifecycle, length (R159). -/
def expectedStatus (lc : Lifecycle) (op : Byte) (len : Nat) : Byte :=
  if op ≠ 0x01 ∧ op ≠ 0x02 ∧ op ≠ 0x03 ∧ op ≠ 0x04 then 0x05
  else if op = 0x01 ∧ lc = .usable then 0x04
  else if (op = 0x02 ∨ op = 0x03) ∧ lc = .empty then 0x03
  else if op = 0x01 ∧ len ≠ 24 then 0x01
  else if (op = 0x02 ∨ op = 0x03) ∧ len ≠ 8 then 0x02
  else if op = 0x04 ∧ len ≠ 0 then 0x05
  else 0x00

/-- A safe step: the machine goes on. -/
def goesOn : Outcome → Bool
  | .next _ => true
  | .fault _ => false
  | .refused _ => false

end Sys2Proof.Machine
end

