-- ==== Sys2Proof/Certificates/Slice0/Obligations.lean ====
section
/-! DEFINITION. The statements for the provers. Each docstring names the rule of spec/ it formalises. A law that the spec marks as
derived is named so there. -/

open Sys2Proof Sys2Proof.Machine

/-! ### Notation -/

/-- R14: a rotation by 1 or 2 is the formula of the rule, and its top bits re-enter at the bottom. -/
def Obligations.RotateLeftReentersTopBits : Prop :=
  ∀ (v : KeyHalf) (a : Nat), a = 1 ∨ a = 2 →
    (rotl28 v a).toNat = ((v.toNat <<< a) ||| (v.toNat >>> (28 - a))) % 2 ^ 28 ∧
    ∀ i, i < 28 → (rotl28 v a).getLsbD ((i + a) % 28) = v.getLsbD i

/-- R13: output DES bit k is the input DES bit that entry k of the table names. -/
def Obligations.PermuteReadsTableEntry : Prop :=
  ∀ (w n : Nat) (table : List Nat) (v : BitVec w), table.length = n → (∀ x ∈ table, 1 ≤ x ∧ x ≤ w) →
    ∀ k, 1 ≤ k → k ≤ n →
      dbit (permute n table v) k = dbit v (table.getD (k - 1) 0) ∧
      (permute n table v).getLsbD (n - k) = v.getLsbD (w - table.getD (k - 1) 0)

/-- R12: the first byte is the most significant; DES bit 1 of a block is the top bit of its first byte and DES bit 64 the
bottom bit of its eighth; a block is its eight bytes and back. -/
def Obligations.BytesAreBigEndian : Prop :=
  (∀ (b : Byte) (bytes : List Byte), be (b :: bytes) = b.toNat * 256 ^ bytes.length + be bytes) ∧
  (∀ (bytes : List Byte) (k i : Nat), bytes.length = 8 → k < 8 → i < 8 →
    dbit (inputBlock bytes) (8 * k + i + 1) = (bytes.getD k 0).getLsbD (7 - i)) ∧
  (∀ (v : Block) (k : Nat), k < 8 → (bytesOfBlock v).getD k 0 = v.extractLsb' (8 * (8 - 1 - k)) 8) ∧
  (∀ v : Block, inputBlock (bytesOfBlock v) = v) ∧
  (∀ bytes : List Byte, bytes.length = 8 → bytesOfBlock (inputBlock bytes) = bytes)

/-! ### Encodings -/

/-- R131: the descriptors of the two rows of PASS, what they decode to, and the INVERT row as the COMPUTE row backwards with
every `dir` bit flipped. -/
def Obligations.PassTableRows : Prop :=
  passCompute = [0b001, 0b110, 0b011] ∧ passInvert = [0b111, 0b010, 0b101] ∧
  passCompute.map decodePass = [.ok (.desEnc .k1), .ok (.desDec .k2), .ok (.desEnc .k3)] ∧
  passInvert.map decodePass = [.ok (.desDec .k3), .ok (.desEnc .k2), .ok (.desDec .k1)] ∧
  ∀ p : Nat, p < 3 → passInvert.getD p 0 = passCompute.getD (2 - p) 0 ^^^ 0b100

/-- R70, R83: the shift word 0x3F7E, round 1 in bit 15, decodes to KS.ROUND1 in rounds 1, 2, 9, 16 and to KS.ROUND2 in the
others; SHIFT[i] = 1 + two_i; and TOTAL[i] is the rotation accumulated after round i. -/
def Obligations.ShiftWordSelectsRounds : Prop :=
  shiftWord = 0x3F7E ∧
  (∀ i, 1 ≤ i → i ≤ 16 →
    shiftTable.getD (i - 1) 0 = 1 + (shiftWord.getLsbD (16 - i)).toNat ∧
    decode (.keyStep (shiftWord.extractLsb' (16 - i) 1)) =
      .ok (if i = 1 ∨ i = 2 ∨ i = 9 ∨ i = 16 then .ksRound1 else .ksRound2)) ∧
  (List.range 16).map (fun j => (shiftTable.take (j + 1)).sum) = [1, 2, 4, 6, 8, 10, 12, 14, 15, 17, 19, 21, 23, 25, 27, 28]

/-- R69: bit 2 of a pass descriptor is the direction, bits 1:0 are the schedule, and ks = 0 is refused by the decoder. -/
def Obligations.PassDescriptorFields : Prop :=
  ∀ d : BitVec 3, decode (.pass d) =
    (match d.extractLsb' 0 2, d.getLsbD 2 with
     | 0, _ => .error .reservedSchedule
     | 1, false => .ok (.desEnc .k1)
     | 2, false => .ok (.desEnc .k2)
     | 3, false => .ok (.desEnc .k3)
     | 1, true => .ok (.desDec .k1)
     | 2, true => .ok (.desDec .k2)
     | 3, true => .ok (.desDec .k3))

/-- R61: the first two bytes of a frame are `op` and `len`, then `len` payload bytes, so a frame is read back from the front
of any byte stream. -/
def Obligations.FrameIsReadBackFromStream : Prop :=
  ∀ (f : Frame) (rest : List Byte), f.WellFormed →
    f.bytes = f.op :: BitVec.ofNat 8 f.payload.length :: f.payload ∧ f.bytes.length = 2 + f.payload.length ∧
    parseFrame (f.bytes ++ rest) = .ok (f, rest)

/-- Formats C, P and K (R61, R63, R69, R70): for any value of the open parameters (R9), the decoder gives back every instruction
that has an encoding, every operand at every value. -/
def Obligations.DecodeOfEncodeIsIdentity : Prop :=
  ∀ (cfg : Config.Params) (i : Instr), i.WellFormed cfg → decode (encode i) cfg = .ok i

/-- Each word has one meaning (R61, R63, R67, R69, R70), for any value of the open parameters (R9): what decodes to an instruction is that
instruction's encoding, and the instruction is well-formed. -/
def Obligations.EncodeOfDecodeIsIdentity : Prop :=
  ∀ (cfg : Config.Params) (e : Encoded) (i : Instr), decode e cfg = .ok i → encode i = e ∧ i.WellFormed cfg

/-- A few words, written out bit by bit from R61, R69, R70 and the frames of 95_test_vectors.md V24. -/
def Obligations.SampleWordsDecode : Prop :=
  decode (.frame [0b00000001, 0b00000000]) = .ok (.construct []) ∧
  decode (.frame [0b00000010, 0b00001000, 0x54, 0x68, 0x65, 0x20, 0x71, 0x75, 0x66, 0x63]) =
    .ok (.compute [0x54, 0x68, 0x65, 0x20, 0x71, 0x75, 0x66, 0x63]) ∧
  decode (.frame [0b00000011, 0b00001000, 0xA8, 0x26, 0xFD, 0x8C, 0xE5, 0x3B, 0x85, 0x5F]) =
    .ok (.invert [0xA8, 0x26, 0xFD, 0x8C, 0xE5, 0x3B, 0x85, 0x5F]) ∧
  decode (.frame [0b00000100, 0b00000000]) = .ok (.destroy []) ∧
  decode (.frame [0b01111111, 0b00000010, 0x01, 0x02]) = .error (.illegalOpcode 0x7F) ∧
  decode (.pass 0b001) = .ok (.desEnc .k1) ∧ decode (.pass 0b110) = .ok (.desDec .k2) ∧
  decode (.keyStep 0b0) = .ok .ksRound1 ∧ decode (.keyStep 0b1) = .ok .ksRound2

/-! ### The key scheduler -/

/-- R81, R82: CD_0 is the selection PC1 of the sub-key and C_0, D_0 are its halves; the eight parity bits, DES bits 8, 16 to 64,
have no influence. -/
def Obligations.Pc1IgnoresParity : Prop :=
  (∀ k : SubKey, pc1 k = permute 56 pc1Table k ∧ initialC k ++ initialD k = pc1 k) ∧
  ∀ k k' : SubKey, (∀ i, 1 ≤ i → i ≤ 64 → i % 8 ≠ 0 → dbit k i = dbit k' i) → pc1 k = pc1 k'

/-- R91 item 1 (the spec's derivation): round key i is selected from the initial halves rotated by TOTAL[i], and a rotation by
28 is the identity. -/
def Obligations.ScheduleClosedForm : Prop :=
  (∀ v : KeyHalf, rotl28 v 28 = v) ∧
  ∀ (k : SubKey) (j : Fin 16), (ksDerive k)[j] =
    pc2 (rotl28 (initialC k) (shiftTable.take (j.val + 1)).sum) (rotl28 (initialD k) (shiftTable.take (j.val + 1)).sum)

/-- R91 item 2 (the spec's derivation): after the sixteenth round the halves are back where they began. -/
def Obligations.HalvesReturnToStart : Prop := ∀ v : KeyHalf, shiftTable.foldl rotl28 v = v

/-- R91 item 3 (the spec's derivation): sub-keys that differ in parity bits only have one schedule. -/
def Obligations.SchedulesAreParityBlind : Prop :=
  ∀ k k' : SubKey, (∀ i, 1 ≤ i → i ≤ 64 → i % 8 ≠ 0 → dbit k i = dbit k' i) → ksDerive k = ksDerive k'

/-- R91 item 5 (the spec's derivation): the schedule of the complement is the complement of the schedule. -/
def Obligations.ScheduleOfComplement : Prop :=
  ∀ (k : SubKey) (j : Fin 16), (ksDerive (~~~k))[j] = ~~~(ksDerive k)[j]

/-- R85: the upper 24 bits of a round key depend on C alone, the lower 24 on D alone. -/
def Obligations.RoundKeyHalvesAreIndependent : Prop :=
  (∀ c d : KeyHalf, pc2 c d = permute 48 pc2Table (c ++ d)) ∧
  ∀ c d c' d' : KeyHalf,
    (pc2 c d).extractLsb' 24 24 = (pc2 c d').extractLsb' 24 24 ∧ (pc2 c d).extractLsb' 0 24 = (pc2 c' d).extractLsb' 0 24

/-- R87: KS.ROUND1 at round i = n + 1 of schedule s = p + 1 rotates C and D left by 1, then writes the selection to
`RK[s][i-1]`. Nothing else changes. The rule gives it for rounds 1, 2, 9, 16; that it does the same in any other round is the
model's choice (log 7). -/
def Obligations.KsRoundOneRotatesByOne : Prop :=
  ∀ (s : State) (ks : SchedNo) (j : Fin 16), s.p.toNat = (schedIndex ks).val → s.n.toNat = j.val →
    ∃ t, exec .ksRound1 s = .next t ∧
      t.c = rotl28 s.c 1 ∧ t.d = rotl28 s.d 1 ∧ readRk t ks j = permute 48 pc2Table (t.c ++ t.d) ∧
      (∀ ks' j', ¬ (ks' = ks ∧ j' = j) → readRk t ks' j' = readRk s ks' j') ∧
      t = { s with c := t.c, d := t.d, rk := t.rk }

/-- R88: KS.ROUND2 likewise, rotating by 2, which is rotating by 1 twice. The rule gives it for rounds 3 to 8 and 10 to 15; any
other round is the model's choice (log 7). -/
def Obligations.KsRoundTwoRotatesByTwo : Prop :=
  (∀ v : KeyHalf, rotl28 v 2 = rotl28 (rotl28 v 1) 1) ∧
  ∀ (s : State) (ks : SchedNo) (j : Fin 16), s.p.toNat = (schedIndex ks).val → s.n.toNat = j.val →
    ∃ t, exec .ksRound2 s = .next t ∧
      t.c = rotl28 s.c 2 ∧ t.d = rotl28 s.d 2 ∧ readRk t ks j = permute 48 pc2Table (t.c ++ t.d) ∧
      (∀ ks' j', ¬ (ks' = ks ∧ j' = j) → readRk t ks' j' = readRk s ks' j') ∧
      t = { s with c := t.c, d := t.d, rk := t.rk }

/-- R43: there are no words past the store, so a derivation round positioned there stops; the stop is the model's (log 8). -/
def Obligations.KsRoundPastStoreFaults : Prop :=
  ∀ s : State, s.p = 3 ∨ 16 ≤ s.n.toNat →
    exec .ksRound1 s = .fault .noSuchRoundKeyWord ∧ exec .ksRound2 s = .fault .noSuchRoundKeyWord

/-- R43: the word at linear address 16(s-1) + j is `RK[s][j]`, the addresses are 0 to 47, and there are no words at others. -/
def Obligations.StoreIsWordAddressed : Prop :=
  ∀ s : State,
    (∀ ks j, rkAddress ks j < 48 ∧ readRkAt s (rkAddress ks j) = some (readRk s ks j)) ∧
    (∀ a, a < 48 → ∃ ks j, rkAddress ks j = a) ∧ (∀ a, 48 ≤ a → readRkAt s a = none)

/-- R92: CONSTRUCT. USABLE faults with AlreadyConstructed, then any length but 24 with InvalidKeyLength, and neither writes
anything; otherwise schedule s holds the round keys of sub-key Ks, payload bytes 8(s-1) to 8(s-1)+7, by the rounds of R80 to R90,
and the core is USABLE. -/
def Obligations.ConstructDerivesThreeSchedules : Prop :=
  ∀ (s : State) (payload : List Byte),
    (s.lc = .usable → exec (.construct payload) s = .next (s.ended (some { status := 0x04, payload := [] }))) ∧
    (s.lc = .empty → payload.length ≠ 24 →
      exec (.construct payload) s = .next (s.ended (some { status := 0x01, payload := [] }))) ∧
    (s.lc = .empty → payload.length = 24 →
      ∀ C D : SchedNo → Nat → KeyHalf,
        (∀ ks, C ks 0 ++ D ks 0 =
          permute 56 pc1Table (BitVec.ofNat 64 (be ((payload.drop (8 * (schedIndex ks).val)).take 8)))) →
        (∀ ks i, i < 16 → C ks (i + 1) = rotl28 (C ks i) (shiftTable.getD i 0) ∧
          D ks (i + 1) = rotl28 (D ks i) (shiftTable.getD i 0)) →
        ∃ t, exec (.construct payload) s = .next t ∧
          (∀ ks (j : Fin 16), readRk t ks j = permute 48 pc2Table (C ks (j.val + 1) ++ D ks (j.val + 1))) ∧
          t = { s.ended (some { status := 0x00, payload := [] }) with lc := .usable, rk := t.rk })

/-! ### The block-transform pipeline -/

/-- R103 (the spec's derivation): FP undoes IP and IP undoes FP, on every block and in the tables. -/
def Obligations.FinalPermutationInvertsInitial : Prop :=
  (∀ x : Block, fp (ip x) = x ∧ ip (fp x) = x) ∧
  ∀ k, 1 ≤ k → k ≤ 64 →
    ipTable.getD (fpTable.getD (k - 1) 0 - 1) 0 = k ∧ fpTable.getD (ipTable.getD (k - 1) 0 - 1) 0 = k

/-- R114: the k-th 4 bits of the substitution are S-box k's entry at the row of the two outer bits and the column of the four
inner bits of the k-th 6-bit group. -/
def Obligations.SubstitutionAddressesSboxes : Prop :=
  ∀ (x : BitVec 48) (k : Nat), 1 ≤ k → k ≤ 8 →
    ∀ g : BitVec 6, g = x.extractLsb' (42 - 6 * (k - 1)) 6 →
      (substitute x).extractLsb' (32 - 4 * k) 4 =
        BitVec.ofNat 4 ((([sbox1, sbox2, sbox3, sbox4, sbox5, sbox6, sbox7, sbox8].getD (k - 1) []).getD
          (2 * (g.getLsbD 5).toNat + (g.getLsbD 0).toNat) []).getD (g.extractLsb' 1 4).toNat 0)

/-- R116: F is expansion, xor with the round key, substitution, permutation P; F(R, K) = F(not R, not K); and
F(00000000, 000000000000) = D8D8DBBC. -/
def Obligations.RoundFunctionComposition : Prop :=
  (∀ (r : DataHalf) (k : RoundKey), roundF r k = permute 32 pTable (substitute (permute 48 eTable r ^^^ k))) ∧
  (∀ (r : DataHalf) (k : RoundKey), roundF (~~~r) (~~~k) = roundF r k) ∧
  roundF 0 0 = 0xD8D8DBBC

/-- R117, R118: DES.ENC runs sixteen rounds on BLK with `RK[s][0]` to `RK[s][15]`, swaps, and applies FP. Only the transient
L, R, n and BLK change. What a pass leaves in L, R and n is the model's reading (log 6). -/
def Obligations.EncryptPassReadsKeysForward : Prop :=
  ∀ (s : State) (ks : SchedNo) (L R : Nat → DataHalf),
    L 0 ++ R 0 = permute 64 ipTable s.blk →
    (∀ j : Fin 16, L (j.val + 1) = R j.val ∧ R (j.val + 1) = L j.val ^^^ roundF (R j.val) (readRk s ks j)) →
    exec (.desEnc ks) s =
      .next { s with l := L 16, r := R 16, n := 16, blk := permute 64 fpTable (R 16 ++ L 16) }

/-- R117, R119: DES.DEC is the same with `RK[s][15]` to `RK[s][0]`. What a pass leaves in L, R and n is the model's reading
(log 6). -/
def Obligations.DecryptPassReadsKeysBackward : Prop :=
  ∀ (s : State) (ks : SchedNo) (L R : Nat → DataHalf),
    L 0 ++ R 0 = permute 64 ipTable s.blk →
    (∀ j : Fin 16, L (j.val + 1) = R j.val ∧
      R (j.val + 1) = L j.val ^^^ roundF (R j.val) (readRk s ks ⟨15 - j.val, by omega⟩)) →
    exec (.desDec ks) s =
      .next { s with l := L 16, r := R 16, n := 16, blk := permute 64 fpTable (R 16 ++ L 16) }

/-- R120 item 1 (the spec's derivation): for any sixteen words, the two directions undo each other. -/
def Obligations.DecryptInvertsEncrypt : Prop :=
  ∀ (sched : Schedule) (x : Block),
    desDecrypt sched (desEncrypt sched x) = x ∧ desEncrypt sched (desDecrypt sched x) = x

/-- R120 item 1 (the spec's derivation), as instructions: DES.DEC after DES.ENC on the same schedule, or the other way round,
restores BLK. -/
def Obligations.PassesRestoreTheBlock : Prop :=
  ∀ (s : State) (ks : SchedNo),
    (∃ t u, exec (.desEnc ks) s = .next t ∧ exec (.desDec ks) t = .next u ∧ u.blk = s.blk ∧ u.rk = s.rk) ∧
    (∃ t u, exec (.desDec ks) s = .next t ∧ exec (.desEnc ks) t = .next u ∧ u.blk = s.blk ∧ u.rk = s.rk)

/-- R120 item 3 (the spec's derivation): under a palindromic schedule the two directions agree, and each is its own inverse. -/
def Obligations.PalindromicScheduleIsInvolution : Prop :=
  ∀ sched : Schedule, (∀ j : Fin 16, sched[j] = sched[15 - j.val]) →
    ∀ x : Block, desDecrypt sched x = desEncrypt sched x ∧ desEncrypt sched (desEncrypt sched x) = x

/-- R121 (the spec's derivation): complementing sub-key and block complements the ciphertext. -/
def Obligations.EncryptionOfComplement : Prop :=
  ∀ (k : SubKey) (x : Block), desEncrypt (ksDerive (~~~k)) (~~~x) = ~~~(desEncrypt (ksDerive k) x)

/-! ### The commands -/

/-- R134: COMPUTE. EMPTY faults with NotUsable, then any length but 8 with InvalidInputLength; otherwise the response is the
block after encryption under schedule 1, decryption under 2, encryption under 3, and nothing persistent changes. With equal
schedules 1 and 2 the encryption under 3 is left; with equal 2 and 3, under 1. -/
def Obligations.ComputeEncryptsDecryptsEncrypts : Prop :=
  ∀ (s : State) (payload : List Byte),
    (s.lc = .empty → exec (.compute payload) s = .next (s.ended (some { status := 0x03, payload := [] }))) ∧
    (s.lc = .usable → payload.length ≠ 8 →
      exec (.compute payload) s = .next (s.ended (some { status := 0x02, payload := [] }))) ∧
    (s.lc = .usable → payload.length = 8 → ∀ t1 t2 y : Block,
      t1 = desEncrypt (schedule s.rk .k1) (BitVec.ofNat 64 (be payload)) →
      t2 = desDecrypt (schedule s.rk .k2) t1 → y = desEncrypt (schedule s.rk .k3) t2 →
        exec (.compute payload) s = .next (s.ended (some { status := 0x00, payload := bytesOfBlock y })) ∧
        (schedule s.rk .k1 = schedule s.rk .k2 → y = desEncrypt (schedule s.rk .k3) (BitVec.ofNat 64 (be payload))) ∧
        (schedule s.rk .k2 = schedule s.rk .k3 → y = t1))

/-- R135: INVERT. The same checks; the response is the block after decryption under schedule 3, encryption under 2, decryption
under 1, and it is the one block whose COMPUTE is the given one. -/
def Obligations.InvertDecryptsEncryptsDecrypts : Prop :=
  ∀ (s : State) (payload : List Byte),
    (s.lc = .empty → exec (.invert payload) s = .next (s.ended (some { status := 0x03, payload := [] }))) ∧
    (s.lc = .usable → payload.length ≠ 8 →
      exec (.invert payload) s = .next (s.ended (some { status := 0x02, payload := [] }))) ∧
    (s.lc = .usable → payload.length = 8 → ∀ t1 t2 y : Block,
      t1 = desDecrypt (schedule s.rk .k3) (BitVec.ofNat 64 (be payload)) →
      t2 = desEncrypt (schedule s.rk .k2) t1 → y = desDecrypt (schedule s.rk .k1) t2 →
        exec (.invert payload) s = .next (s.ended (some { status := 0x00, payload := bytesOfBlock y })) ∧
        ∀ x : Block, exec (.compute (bytesOfBlock x)) s =
          .next (s.ended (some { status := 0x00, payload := payload })) ↔ x = y)

/-- R136: DESTROY, in either lifecycle state. A payload faults with IllegalCommand and nothing is zeroed; otherwise every word
is zero and the core is EMPTY. -/
def Obligations.DestroyZeroesTheStore : Prop :=
  ∀ (s : State) (payload : List Byte),
    (payload.length ≠ 0 → exec (.destroy payload) s = .next (s.ended (some { status := 0x05, payload := [] }))) ∧
    (payload.length = 0 → ∃ t, exec (.destroy payload) s = .next t ∧ (∀ ks j, readRk t ks j = 0) ∧
      t = { s.ended (some { status := 0x00, payload := [] }) with lc := .empty, rk := t.rk } ∧
      ((∀ ks j, readRk s ks j = 0) → t.rk = s.rk))

/-- R159: a frame is answered by the first check that fails, opcode, then lifecycle, then length. -/
def Obligations.FirstFailingCheckIsReported : Prop :=
  ∀ (s : State) (f : Frame) (rest : List HostEvent), s.NextFrame f rest → s.resp = none →
    ∃ t out, step s = .next t ∧
      t.sent = s.sent ++ [{ status := expectedStatus s.lc f.op f.payload.length, payload := out }]

/-- R157: a frame answered with a fault leaves LC, every word of RK and the rest of the channels as they were, clears the
transient registers, and carries no payload. -/
def Obligations.FaultingCommandHasNoEffect : Prop :=
  ∀ (s t : State) (f : Frame) (rest : List HostEvent) (r : Response), s.NextFrame f rest → s.resp = none →
    step s = .next t → t.sent = s.sent ++ [r] → r.status ≠ 0x00 →
      r.payload = [] ∧ t = { s.ended none with inbox := rest, sent := s.sent ++ [r] }

/-- R60, R64: every frame is answered by exactly one response, in order; its status is 0x00 to 0x05, and its payload has 8 bytes
after a successful COMPUTE or INVERT and none in every other case. -/
def Obligations.OneResponsePerFrame : Prop :=
  ∀ (s : State) (f : Frame) (rest : List HostEvent), s.NextFrame f rest → s.resp = none →
    ∃ t r, step s = .next t ∧ t.inbox = rest ∧ t.resp = none ∧ t.sent = s.sent ++ [r] ∧ r.status.toNat ≤ 5 ∧
      (r.payload.length = if r.status = 0x00 ∧ (f.op = 0x02 ∨ f.op = 0x03) then 8 else 0) ∧
      responseBytes r = r.status :: BitVec.ofNat 8 r.payload.length :: r.payload

/-- R137 (a requirement of the source that the spec also derives): INVERT of the response to COMPUTE gives the block back, and
COMPUTE of the response to INVERT does, for every store. -/
def Obligations.ComputeAndInvertRoundTrip : Prop :=
  ∀ (s : State) (payload : List Byte), s.lc = .usable → payload.length = 8 →
    (∃ t u out, exec (.compute payload) s = .next t ∧ t.resp = some { status := 0x00, payload := out } ∧
      exec (.invert out) t = .next u ∧ u.resp = some { status := 0x00, payload := payload }) ∧
    (∃ t u out, exec (.invert payload) s = .next t ∧ t.resp = some { status := 0x00, payload := out } ∧
      exec (.compute out) t = .next u ∧ u.resp = some { status := 0x00, payload := payload })

/-- R139 (the spec's derivation): with three sub-keys that are equal but for parity bits, CONSTRUCT then COMPUTE is single-DES
encryption, and CONSTRUCT then INVERT single-DES decryption. -/
def Obligations.EqualSubKeysGiveSingleDes : Prop :=
  ∀ (s t : State) (key payload : List Byte) (k : SubKey), s.lc = .empty → key.length = 24 → payload.length = 8 →
    (∀ ks i, 1 ≤ i → i ≤ 64 → i % 8 ≠ 0 → dbit (subKey key ks) i = dbit k i) →
    exec (.construct key) s = .next t →
      (∃ u, exec (.compute payload) t = .next u ∧
        u.resp = some { status := 0x00, payload := bytesOfBlock (desEncrypt (ksDerive k) (inputBlock payload)) }) ∧
      (∃ u, exec (.invert payload) t = .next u ∧
        u.resp = some { status := 0x00, payload := bytesOfBlock (desDecrypt (ksDerive k) (inputBlock payload)) })

/-- R138: the response to a data command is a function of the store, the lifecycle and the block alone, and repeating the
command repeats the response. -/
def Obligations.DataCommandsArePure : Prop :=
  ∀ (s s' : State) (payload : List Byte), s.lc = s'.lc → s.rk = s'.rk →
    ∀ i ∈ [Instr.compute payload, Instr.invert payload],
      ∃ t t' u, exec i s = .next t ∧ exec i s' = .next t' ∧ exec i t = .next u ∧
        t.resp = t'.resp ∧ u.resp = t.resp ∧ u = t

/-- R51 (the spec's derivation): two data commands commute: in either order each gets the same response, and the core is left
the same. -/
def Obligations.DataCommandsCommute : Prop :=
  ∀ (s : State) (a b : List Byte),
    ∀ i ∈ [Instr.compute a, Instr.invert a], ∀ j ∈ [Instr.compute b, Instr.invert b],
      ∃ ti tij tj tji, exec i s = .next ti ∧ exec j ti = .next tij ∧ exec j s = .next tj ∧ exec i tj = .next tji ∧
        ti.resp = tji.resp ∧ tj.resp = tij.resp ∧ tij = { tji with resp := tij.resp } ∧ tij.rk = s.rk ∧ tij.lc = s.lc

/-- R166 (confidentiality): the response to a frame that is not a successful COMPUTE or INVERT does not depend on the store. -/
def Obligations.ResponsesHideTheStore : Prop :=
  ∀ (s : State) (rk' : Store) (f : Frame) (rest : List HostEvent), s.NextFrame f rest → s.resp = none →
    ¬ (expectedStatus s.lc f.op f.payload.length = 0x00 ∧ (f.op = 0x02 ∨ f.op = 0x03)) →
      ∃ t t', step s = .next t ∧ step { s with rk := rk' } = .next t' ∧ t.sent = t'.sent ∧ t.lc = t'.lc

/-- R25: LC and RK change only by reset, by a CONSTRUCT of 24 bytes in EMPTY and by a DESTROY without payload; and these do what
the table says. -/
def Obligations.LifecycleTransitions : Prop :=
  (∀ s t : State, s.busy = none → step s = .next t →
    (t.lc = s.lc ∧ t.rk = s.rk) ∨
    (∃ rest, s.inbox = .reset :: rest) ∨ (∃ f rest, s.inbox = .cutFrame f :: rest) ∨
    (∃ f rest, s.inbox = .frame f :: rest ∧ f.op = 0x01 ∧ f.payload.length = 24 ∧ s.lc = .empty) ∨
    (∃ f rest, s.inbox = .frame f :: rest ∧ f.op = 0x04 ∧ f.payload.length = 0)) ∧
  (∀ (s : State) (f : Frame) (rest : List HostEvent), s.NextFrame f rest → f.op = 0x01 → f.payload.length = 24 → s.lc = .empty →
    ∃ t, step s = .next t ∧ t.lc = .usable ∧ ∀ ks j, readRk t ks j = (ksDerive (subKey f.payload ks))[j]) ∧
  (∀ (s : State) (f : Frame) (rest : List HostEvent), s.NextFrame f rest → f.op = 0x04 → f.payload.length = 0 →
    ∃ t, step s = .next t ∧ t.lc = .empty ∧ ∀ ks j, readRk t ks j = 0) ∧
  (∀ (s : State) (rest : List HostEvent), s.inbox = .reset :: rest →
    ∃ t, step s = .next t ∧ t.lc = .empty ∧ ∀ ks j, readRk t ks j = 0)

/-! ### The step -/

/-- A step runs the decoded command (R50, R141): on a frame that decodes to i, an idle core takes the frame, executes i, and
emits its response. -/
def Obligations.StepRunsDecodedFrame : Prop :=
  ∀ (s : State) (f : Frame) (rest : List HostEvent) (i : Instr), s.busy = none → s.inbox = .frame f :: rest →
    decodeFrame f = .ok i → step s = mapNext deliver (exec i { s with inbox := rest })

/-- A step runs the decoded micro-operation (R132): in a state in which a command is in execution and no reset is asserted, the
step executes the micro-operation at position (p, n) and advances the sequencer. That a command's micro-operations can be
stepped one by one is the model's choice (log 1). -/
def Obligations.StepRunsDecodedMicroOp : Prop :=
  ∀ (s : State) (job : Job) (e : Encoded) (i : Instr), s.busy = some job → s.inbox.head? ≠ some .reset →
    microFetch job s.p s.n = some e → decode e = .ok i →
      step s = mapNext (fun t => deliver (advance job t)) (exec i s)

/-- R67: a frame with any other opcode is answered IllegalCommand, whatever its length, and changes no state. -/
def Obligations.IllegalOpcodeIsAnswered : Prop :=
  ∀ (s : State) (f : Frame) (rest : List HostEvent), s.NextFrame f rest → s.resp = none →
    (f.op = 0x00 ∨ 0x05 ≤ f.op.toNat) →
      decodeFrame f = .error (.illegalOpcode f.op) ∧
      step s = .next { s.ended none with inbox := rest, sent := s.sent ++ [{ status := 0x05, payload := [] }] }

/-- R65: while a command is in execution no frame is accepted, and the frames the host holds are not lost. States in
which a command is in execution between two steps are the model's choice (log 1). -/
def Obligations.BusyCoreAcceptsNoFrame : Prop :=
  ∀ (s t : State) (job : Job), s.busy = some job → s.inbox.head? ≠ some .reset → step s = .next t → t.inbox = s.inbox

/-- R170, R35: reset, whatever the core is doing, leaves EMPTY, a zero store, zero transients and an idle response channel, and
produces no response. -/
def Obligations.ResetClearsTheCore : Prop :=
  ∀ (s : State) (rest : List HostEvent), s.inbox = .reset :: rest →
    ∃ t, step s = .next t ∧ (∀ ks j, readRk t ks j = 0) ∧
      t = { State.reset with rk := t.rk, inbox := rest, sent := s.sent }

/-- R171: a command that reset cuts short produces no response, and the reset state follows: of a frame on an idle core, and of
a command in execution, whatever it has written. -/
def Obligations.AbandonedCommandLeavesResetState : Prop :=
  ∀ (s : State) (rest : List HostEvent),
    (∀ f : Frame, s.busy = none → s.inbox = .cutFrame f :: rest → f.WellFormed →
      step s = .next { State.reset with inbox := rest, sent := s.sent }) ∧
    (∀ job, s.busy = some job → s.inbox = .reset :: rest →
      step s = .next { State.reset with inbox := rest, sent := s.sent })

/-- R35: the reset values of the lifecycle register, the store, the transient registers, the payload buffer and the response
channel. -/
def Obligations.ResetStateValues : Prop :=
  State.reset.lc = .empty ∧ (∀ ks j, readRk State.reset ks j = 0) ∧ State.reset.p = 0 ∧ State.reset.n = 0 ∧
  State.reset.c = 0 ∧ State.reset.d = 0 ∧ State.reset.l = 0 ∧ State.reset.r = 0 ∧ State.reset.blk = 0 ∧
  State.reset.inBuf = [] ∧ State.reset.resp = none

/-- The invariant between commands holds at reset (R23, R35). -/
def Obligations.ResetStateMeetsInvariant : Prop := State.reset.Inv

/-- Every step keeps the invariant between commands (R23, R27, R47; R23 is the spec's derivation): EMPTY with a zero store, or
USABLE with the store of one 24-byte key; every transient zero. -/
def Obligations.StepKeepsStoreInvariant : Prop :=
  ∀ s t : State, s.Inv → step s = .next t → t.Inv

/-- R176: between commands, every host action has a defined result: the step goes on. -/
def Obligations.EveryHostActionIsDefined : Prop :=
  ∀ s : State, s.busy = none → (∀ ev ∈ s.inbox, ev.Possible) → goesOn (step s) = true

/-- R132, R134, R135: run pass by pass by the sequencer, a data command takes three steps and ends as the atomic command does. Stepping
a command by its micro-operations is the model's form (log 1). -/
def Obligations.ThreePassesCompleteADataCommand : Prop :=
  ∀ (s : State) (payload : List Byte), s.lc = .usable → payload.length = 8 → s.resp = none →
    s.inbox.head? ≠ some .reset →
      (Sys2Proof.core.run 3 (accept .compute payload s) : Outcome) = mapNext deliver (exec (.compute payload) s) ∧
      (Sys2Proof.core.run 3 (accept .invert payload s) : Outcome) = mapNext deliver (exec (.invert payload) s)

/-- R90, R92: run round by round by the sequencer, CONSTRUCT takes forty-eight steps and ends as the atomic command does.
Stepping a command by its micro-operations is the model's form (log 1). -/
def Obligations.FortyEightRoundsCompleteConstruct : Prop :=
  ∀ (s : State) (payload : List Byte), s.lc = .empty → payload.length = 24 → s.resp = none →
    s.inbox.head? ≠ some .reset →
      (Sys2Proof.core.run 48 (accept .construct payload s) : Outcome) = mapNext deliver (exec (.construct payload) s)

/-! ### The open parameters -/

/-- R9, R62: `LEN_MAX` is an argument of the step, and it bears only on which frames there are. If every frame that is next can be
framed under two values of the parameters, the two steps are the same; and an idle core refuses by name a frame that cannot be
framed, with reset or without. That the refusal is the step's is the model's (log 5). -/
def Obligations.LenMaxBoundsFramesOnly : Prop :=
  (∀ (cfg cfg' : Config.Params) (s : State), (∀ ev ∈ s.inbox.head?, ev.Possible cfg ∧ ev.Possible cfg') →
    stepWith cfg s = stepWith cfg' s) ∧
  ∀ (cfg : Config.Params) (s : State) (f : Frame) (rest : List HostEvent), s.busy = none →
    s.inbox = .frame f :: rest ∨ s.inbox = .cutFrame f :: rest → cfg.lenMax.val < f.payload.length →
      stepWith cfg s = .refused .unframablePayload

/-- R50: with `N_PORT` = 1 the arbiter has one order to serve the port's frames in, that in which they were sent. -/
def Obligations.OnePortKeepsItsOrder : Prop :=
  ∀ (q : List Frame) (order : List (Grant 1)), (∀ g ∈ order, ∃ i, g = .port i) →
    (arbitrate order #v[q] = if order.length = q.length then some (q.map .frame) else none)

/-- R51 (the spec's derivation): with any number of ports, as long as every frame is a COMPUTE or an INVERT, each port gets the
same responses in whatever order the arbiter serves the ports, and the store and the lifecycle are unchanged. -/
def Obligations.PortOrderIsUnobservable : Prop :=
  ∀ (cfg : Config.Params) (ports : Ports cfg) (s : State) (order order' : List (Grant cfg.nPort)),
    s.busy = none → s.resp = none →
    (∀ (i : Fin cfg.nPort), ∀ f ∈ ports[i], f.WellFormed cfg ∧ (f.op = 0x02 ∨ f.op = 0x03)) →
    (∀ g ∈ order ++ order', ∃ i, g = .port i) →
    arbitrate order ports ≠ none → arbitrate order' ports ≠ none →
      ∃ t t' out out', runPorts cfg order ports s = some (.next t) ∧ runPorts cfg order' ports s = some (.next t') ∧
        t.sent = s.sent ++ out ∧ t'.sent = s.sent ++ out' ∧
        (∀ i, responsesOf i order out = responsesOf i order' out') ∧
        t.lc = s.lc ∧ t.rk = s.rk ∧ t'.lc = s.lc ∧ t'.rk = s.rk
end

