-- ==== Sys2Proof/Laws/Bits.lean ====
section
/-! SUPPORT. What the notation of spec/00_scope.md section 5 does, bit by bit. -/

namespace Sys2Proof.Machine

/-- One more digit at the least significant end. -/
theorem natOfBits_append (bits : List Bool) (b : Bool) :
    natOfBits (bits ++ [b]) = 2 * natOfBits bits + b.toNat := by
  simp [natOfBits]

/-- Digit i from the least significant end. -/
theorem testBit_natOfBits (bits : List Bool) (i : Nat) :
    (natOfBits bits).testBit i = (bits.reverse[i]?).getD false := by
  induction bits using List.reverseRecOn generalizing i with
  | nil => simp [natOfBits]
  | append_singleton bits b ih =>
    rw [natOfBits_append]
    cases i with
    | zero => cases b <;> simp [Nat.testBit_zero]
    | succ i =>
      rw [Nat.testBit_succ, show (2 * natOfBits bits + b.toNat) / 2 = natOfBits bits by
        cases b <;> (simp; try omega), ih]
      simp

/-- A permutation's bits, numbered from 0 at the least significant end. -/
theorem getLsbD_permute {w n : Nat} (table : List Nat) (v : BitVec w) (i : Nat) (h : table.length = n) (hi : i < n) :
    (permute n table v).getLsbD i = dbit v (table[n - 1 - i]'(by omega)) := by
  have : i < (table.map (dbit v)).length := by simp; omega
  simp only [permute, BitVec.getLsbD_ofNat, hi, decide_true, Bool.true_and, testBit_natOfBits]
  rw [List.getElem?_reverse this, List.getElem?_eq_getElem (by simp; omega)]
  simp [h]

/-- The same, in DES numbering: output DES bit k is the input DES bit that entry k of the table names. -/
theorem dbit_permute {w n : Nat} (table : List Nat) (v : BitVec w) (k : Nat) (h : table.length = n) (h1 : 1 ≤ k)
    (h2 : k ≤ n) : dbit (permute n table v) k = dbit v (table.getD (k - 1) 0) := by
  rw [dbit, getLsbD_permute table v _ h (by omega), List.getD_eq_getElem _ _ (by omega)]
  congr 2; omega

/-- The bits of a complement, in DES numbering. -/
theorem dbit_not {w : Nat} (v : BitVec w) (i : Nat) (h : 1 ≤ i ∧ i ≤ w) : dbit (~~~v) i = !dbit v i := by
  unfold dbit
  rw [BitVec.getLsbD_not]
  simp; omega

/-- The bits of a rotation by 1 or 2, or by any amount up to the width. -/
theorem getLsbD_rotl28 (v : KeyHalf) (s i : Nat) (hs : s ≤ 28) (hi : i < 28) :
    (rotl28 v s).getLsbD i = v.getLsbD ((i + 28 - s) % 28) := by
  simp only [rotl28, BitVec.getLsbD_or, BitVec.getLsbD_shiftLeft, BitVec.getLsbD_ushiftRight, hi,
    decide_true, Bool.true_and]
  by_cases h : i < s
  · have h2 : (i + 28 - s) % 28 = 28 - s + i := by rw [Nat.mod_eq_of_lt] <;> omega
    simp [h, h2]
  · have h2 : (i + 28 - s) % 28 = i - s := by
      rw [show i + 28 - s = (i - s) + 28 by omega, Nat.add_mod_right, Nat.mod_eq_of_lt (by omega)]
    have h3 : v.getLsbD (28 - s + i) = false := BitVec.getLsbD_of_ge _ _ (by omega)
    simp [h, h2, h3]

/-- One more byte at the most significant end. -/
theorem be_cons (b : Byte) (bytes : List Byte) : be (b :: bytes) = b.toNat * 256 ^ bytes.length + be bytes := by
  have key : ∀ (l : List Byte) (a : Nat),
      l.foldl (fun acc b => 256 * acc + b.toNat) a = a * 256 ^ l.length + l.foldl (fun acc b => 256 * acc + b.toNat) 0 := by
    intro l
    induction l with
    | nil => simp
    | cons x xs ih => intro a; simp only [List.foldl_cons, List.length_cons]; rw [ih, ih (256 * 0 + _)]; ring
  simp only [be, List.foldl_cons]
  rw [key]
  simp

/-- A block has eight bytes. -/
@[simp] theorem length_bytesOfBlock (v : Block) : (bytesOfBlock v).length = 8 := by simp [bytesOfBlock]

end Sys2Proof.Machine
end

