-- ==== Sys2Proof/Laws/State.lean ====
section
/-! SUPPORT. For each update of the state, one lemma per field, so that no proof unfolds a record update. -/

namespace Sys2Proof.Machine

@[simp] theorem clearTransients_lc (s : State) : (clearTransients s).lc = s.lc := rfl
@[simp] theorem clearTransients_rk (s : State) : (clearTransients s).rk = s.rk := rfl
@[simp] theorem clearTransients_busy (s : State) : (clearTransients s).busy = none := rfl
@[simp] theorem clearTransients_p (s : State) : (clearTransients s).p = 0 := rfl
@[simp] theorem clearTransients_n (s : State) : (clearTransients s).n = 0 := rfl
@[simp] theorem clearTransients_c (s : State) : (clearTransients s).c = 0 := rfl
@[simp] theorem clearTransients_d (s : State) : (clearTransients s).d = 0 := rfl
@[simp] theorem clearTransients_l (s : State) : (clearTransients s).l = 0 := rfl
@[simp] theorem clearTransients_r (s : State) : (clearTransients s).r = 0 := rfl
@[simp] theorem clearTransients_blk (s : State) : (clearTransients s).blk = 0 := rfl
@[simp] theorem clearTransients_inBuf (s : State) : (clearTransients s).inBuf = [] := rfl
@[simp] theorem clearTransients_resp (s : State) : (clearTransients s).resp = s.resp := rfl
@[simp] theorem clearTransients_inbox (s : State) : (clearTransients s).inbox = s.inbox := rfl
@[simp] theorem clearTransients_sent (s : State) : (clearTransients s).sent = s.sent := rfl

@[simp] theorem respondOk_lc (out : List Byte) (s : State) : (respondOk out s).lc = s.lc := rfl
@[simp] theorem respondOk_rk (out : List Byte) (s : State) : (respondOk out s).rk = s.rk := rfl
@[simp] theorem respondOk_busy (out : List Byte) (s : State) : (respondOk out s).busy = none := rfl
@[simp] theorem respondOk_p (out : List Byte) (s : State) : (respondOk out s).p = 0 := rfl
@[simp] theorem respondOk_n (out : List Byte) (s : State) : (respondOk out s).n = 0 := rfl
@[simp] theorem respondOk_c (out : List Byte) (s : State) : (respondOk out s).c = 0 := rfl
@[simp] theorem respondOk_d (out : List Byte) (s : State) : (respondOk out s).d = 0 := rfl
@[simp] theorem respondOk_l (out : List Byte) (s : State) : (respondOk out s).l = 0 := rfl
@[simp] theorem respondOk_r (out : List Byte) (s : State) : (respondOk out s).r = 0 := rfl
@[simp] theorem respondOk_blk (out : List Byte) (s : State) : (respondOk out s).blk = 0 := rfl
@[simp] theorem respondOk_inBuf (out : List Byte) (s : State) : (respondOk out s).inBuf = [] := rfl
@[simp] theorem respondOk_resp (out : List Byte) (s : State) : (respondOk out s).resp = some { status := statusOk, payload := out } := rfl
@[simp] theorem respondOk_inbox (out : List Byte) (s : State) : (respondOk out s).inbox = s.inbox := rfl
@[simp] theorem respondOk_sent (out : List Byte) (s : State) : (respondOk out s).sent = s.sent := rfl

@[simp] theorem raise_lc (kind : FaultKind) (s : State) : (raise kind s).lc = s.lc := rfl
@[simp] theorem raise_rk (kind : FaultKind) (s : State) : (raise kind s).rk = s.rk := rfl
@[simp] theorem raise_busy (kind : FaultKind) (s : State) : (raise kind s).busy = none := rfl
@[simp] theorem raise_p (kind : FaultKind) (s : State) : (raise kind s).p = 0 := rfl
@[simp] theorem raise_n (kind : FaultKind) (s : State) : (raise kind s).n = 0 := rfl
@[simp] theorem raise_c (kind : FaultKind) (s : State) : (raise kind s).c = 0 := rfl
@[simp] theorem raise_d (kind : FaultKind) (s : State) : (raise kind s).d = 0 := rfl
@[simp] theorem raise_l (kind : FaultKind) (s : State) : (raise kind s).l = 0 := rfl
@[simp] theorem raise_r (kind : FaultKind) (s : State) : (raise kind s).r = 0 := rfl
@[simp] theorem raise_blk (kind : FaultKind) (s : State) : (raise kind s).blk = 0 := rfl
@[simp] theorem raise_inBuf (kind : FaultKind) (s : State) : (raise kind s).inBuf = [] := rfl
@[simp] theorem raise_resp (kind : FaultKind) (s : State) : (raise kind s).resp = some { status := faultCode kind, payload := [] } := rfl
@[simp] theorem raise_inbox (kind : FaultKind) (s : State) : (raise kind s).inbox = s.inbox := rfl
@[simp] theorem raise_sent (kind : FaultKind) (s : State) : (raise kind s).sent = s.sent := rfl

@[simp] theorem dropEngine_lc (s : State) : (dropEngine s).lc = .empty := rfl
@[simp] theorem dropEngine_rk (s : State) : (dropEngine s).rk = zeroStore := rfl
@[simp] theorem dropEngine_busy (s : State) : (dropEngine s).busy = s.busy := rfl
@[simp] theorem dropEngine_p (s : State) : (dropEngine s).p = s.p := rfl
@[simp] theorem dropEngine_n (s : State) : (dropEngine s).n = s.n := rfl
@[simp] theorem dropEngine_c (s : State) : (dropEngine s).c = s.c := rfl
@[simp] theorem dropEngine_d (s : State) : (dropEngine s).d = s.d := rfl
@[simp] theorem dropEngine_l (s : State) : (dropEngine s).l = s.l := rfl
@[simp] theorem dropEngine_r (s : State) : (dropEngine s).r = s.r := rfl
@[simp] theorem dropEngine_blk (s : State) : (dropEngine s).blk = s.blk := rfl
@[simp] theorem dropEngine_inBuf (s : State) : (dropEngine s).inBuf = s.inBuf := rfl
@[simp] theorem dropEngine_resp (s : State) : (dropEngine s).resp = s.resp := rfl
@[simp] theorem dropEngine_inbox (s : State) : (dropEngine s).inbox = s.inbox := rfl
@[simp] theorem dropEngine_sent (s : State) : (dropEngine s).sent = s.sent := rfl

@[simp] theorem assertReset_lc (s : State) : (assertReset s).lc = .empty := rfl
@[simp] theorem assertReset_rk (s : State) : (assertReset s).rk = zeroStore := rfl
@[simp] theorem assertReset_busy (s : State) : (assertReset s).busy = none := rfl
@[simp] theorem assertReset_p (s : State) : (assertReset s).p = 0 := rfl
@[simp] theorem assertReset_n (s : State) : (assertReset s).n = 0 := rfl
@[simp] theorem assertReset_c (s : State) : (assertReset s).c = 0 := rfl
@[simp] theorem assertReset_d (s : State) : (assertReset s).d = 0 := rfl
@[simp] theorem assertReset_l (s : State) : (assertReset s).l = 0 := rfl
@[simp] theorem assertReset_r (s : State) : (assertReset s).r = 0 := rfl
@[simp] theorem assertReset_blk (s : State) : (assertReset s).blk = 0 := rfl
@[simp] theorem assertReset_inBuf (s : State) : (assertReset s).inBuf = [] := rfl
@[simp] theorem assertReset_resp (s : State) : (assertReset s).resp = none := rfl
@[simp] theorem assertReset_inbox (s : State) : (assertReset s).inbox = s.inbox := rfl
@[simp] theorem assertReset_sent (s : State) : (assertReset s).sent = s.sent := rfl

@[simp] theorem writeRk_lc (ks : SchedNo) (j : Fin 16) (v : RoundKey) (s : State) : (writeRk ks j v s).lc = s.lc := rfl
@[simp] theorem writeRk_rk (ks : SchedNo) (j : Fin 16) (v : RoundKey) (s : State) : (writeRk ks j v s).rk = s.rk.set (schedIndex ks) ((schedule s.rk ks).set j v) := rfl
@[simp] theorem writeRk_busy (ks : SchedNo) (j : Fin 16) (v : RoundKey) (s : State) : (writeRk ks j v s).busy = s.busy := rfl
@[simp] theorem writeRk_p (ks : SchedNo) (j : Fin 16) (v : RoundKey) (s : State) : (writeRk ks j v s).p = s.p := rfl
@[simp] theorem writeRk_n (ks : SchedNo) (j : Fin 16) (v : RoundKey) (s : State) : (writeRk ks j v s).n = s.n := rfl
@[simp] theorem writeRk_c (ks : SchedNo) (j : Fin 16) (v : RoundKey) (s : State) : (writeRk ks j v s).c = s.c := rfl
@[simp] theorem writeRk_d (ks : SchedNo) (j : Fin 16) (v : RoundKey) (s : State) : (writeRk ks j v s).d = s.d := rfl
@[simp] theorem writeRk_l (ks : SchedNo) (j : Fin 16) (v : RoundKey) (s : State) : (writeRk ks j v s).l = s.l := rfl
@[simp] theorem writeRk_r (ks : SchedNo) (j : Fin 16) (v : RoundKey) (s : State) : (writeRk ks j v s).r = s.r := rfl
@[simp] theorem writeRk_blk (ks : SchedNo) (j : Fin 16) (v : RoundKey) (s : State) : (writeRk ks j v s).blk = s.blk := rfl
@[simp] theorem writeRk_inBuf (ks : SchedNo) (j : Fin 16) (v : RoundKey) (s : State) : (writeRk ks j v s).inBuf = s.inBuf := rfl
@[simp] theorem writeRk_resp (ks : SchedNo) (j : Fin 16) (v : RoundKey) (s : State) : (writeRk ks j v s).resp = s.resp := rfl
@[simp] theorem writeRk_inbox (ks : SchedNo) (j : Fin 16) (v : RoundKey) (s : State) : (writeRk ks j v s).inbox = s.inbox := rfl
@[simp] theorem writeRk_sent (ks : SchedNo) (j : Fin 16) (v : RoundKey) (s : State) : (writeRk ks j v s).sent = s.sent := rfl

@[simp] theorem runPass_lc (keys : List RoundKey) (s : State) : (runPass keys s).lc = s.lc := rfl
@[simp] theorem runPass_rk (keys : List RoundKey) (s : State) : (runPass keys s).rk = s.rk := rfl
@[simp] theorem runPass_busy (keys : List RoundKey) (s : State) : (runPass keys s).busy = s.busy := rfl
@[simp] theorem runPass_p (keys : List RoundKey) (s : State) : (runPass keys s).p = s.p := rfl
@[simp] theorem runPass_n (keys : List RoundKey) (s : State) : (runPass keys s).n = 16 := rfl
@[simp] theorem runPass_c (keys : List RoundKey) (s : State) : (runPass keys s).c = s.c := rfl
@[simp] theorem runPass_d (keys : List RoundKey) (s : State) : (runPass keys s).d = s.d := rfl
@[simp] theorem runPass_l (keys : List RoundKey) (s : State) : (runPass keys s).l = (rounds keys s.blk).1 := rfl
@[simp] theorem runPass_r (keys : List RoundKey) (s : State) : (runPass keys s).r = (rounds keys s.blk).2 := rfl
@[simp] theorem runPass_blk (keys : List RoundKey) (s : State) : (runPass keys s).blk = finishPass (rounds keys s.blk) := rfl
@[simp] theorem runPass_inBuf (keys : List RoundKey) (s : State) : (runPass keys s).inBuf = s.inBuf := rfl
@[simp] theorem runPass_resp (keys : List RoundKey) (s : State) : (runPass keys s).resp = s.resp := rfl
@[simp] theorem runPass_inbox (keys : List RoundKey) (s : State) : (runPass keys s).inbox = s.inbox := rfl
@[simp] theorem runPass_sent (keys : List RoundKey) (s : State) : (runPass keys s).sent = s.sent := rfl

@[simp] theorem loadSubKey_lc (ks : SchedNo) (s : State) : (loadSubKey ks s).lc = s.lc := rfl
@[simp] theorem loadSubKey_rk (ks : SchedNo) (s : State) : (loadSubKey ks s).rk = s.rk := rfl
@[simp] theorem loadSubKey_busy (ks : SchedNo) (s : State) : (loadSubKey ks s).busy = s.busy := rfl
@[simp] theorem loadSubKey_p (ks : SchedNo) (s : State) : (loadSubKey ks s).p = s.p := rfl
@[simp] theorem loadSubKey_n (ks : SchedNo) (s : State) : (loadSubKey ks s).n = s.n := rfl
@[simp] theorem loadSubKey_c (ks : SchedNo) (s : State) : (loadSubKey ks s).c = initialC (subKey s.inBuf ks) := rfl
@[simp] theorem loadSubKey_d (ks : SchedNo) (s : State) : (loadSubKey ks s).d = initialD (subKey s.inBuf ks) := rfl
@[simp] theorem loadSubKey_l (ks : SchedNo) (s : State) : (loadSubKey ks s).l = s.l := rfl
@[simp] theorem loadSubKey_r (ks : SchedNo) (s : State) : (loadSubKey ks s).r = s.r := rfl
@[simp] theorem loadSubKey_blk (ks : SchedNo) (s : State) : (loadSubKey ks s).blk = s.blk := rfl
@[simp] theorem loadSubKey_inBuf (ks : SchedNo) (s : State) : (loadSubKey ks s).inBuf = s.inBuf := rfl
@[simp] theorem loadSubKey_resp (ks : SchedNo) (s : State) : (loadSubKey ks s).resp = s.resp := rfl
@[simp] theorem loadSubKey_inbox (ks : SchedNo) (s : State) : (loadSubKey ks s).inbox = s.inbox := rfl
@[simp] theorem loadSubKey_sent (ks : SchedNo) (s : State) : (loadSubKey ks s).sent = s.sent := rfl

@[simp] theorem finishConstruct_lc (s : State) : (finishConstruct s).lc = .usable := rfl
@[simp] theorem finishConstruct_rk (s : State) : (finishConstruct s).rk = s.rk := rfl
@[simp] theorem finishConstruct_busy (s : State) : (finishConstruct s).busy = none := rfl
@[simp] theorem finishConstruct_p (s : State) : (finishConstruct s).p = 0 := rfl
@[simp] theorem finishConstruct_n (s : State) : (finishConstruct s).n = 0 := rfl
@[simp] theorem finishConstruct_c (s : State) : (finishConstruct s).c = 0 := rfl
@[simp] theorem finishConstruct_d (s : State) : (finishConstruct s).d = 0 := rfl
@[simp] theorem finishConstruct_l (s : State) : (finishConstruct s).l = 0 := rfl
@[simp] theorem finishConstruct_r (s : State) : (finishConstruct s).r = 0 := rfl
@[simp] theorem finishConstruct_blk (s : State) : (finishConstruct s).blk = 0 := rfl
@[simp] theorem finishConstruct_inBuf (s : State) : (finishConstruct s).inBuf = [] := rfl
@[simp] theorem finishConstruct_resp (s : State) : (finishConstruct s).resp = some { status := statusOk, payload := [] } := rfl
@[simp] theorem finishConstruct_inbox (s : State) : (finishConstruct s).inbox = s.inbox := rfl
@[simp] theorem finishConstruct_sent (s : State) : (finishConstruct s).sent = s.sent := rfl

@[simp] theorem finishTransform_lc (s : State) : (finishTransform s).lc = s.lc := rfl
@[simp] theorem finishTransform_rk (s : State) : (finishTransform s).rk = s.rk := rfl
@[simp] theorem finishTransform_busy (s : State) : (finishTransform s).busy = none := rfl
@[simp] theorem finishTransform_p (s : State) : (finishTransform s).p = 0 := rfl
@[simp] theorem finishTransform_n (s : State) : (finishTransform s).n = 0 := rfl
@[simp] theorem finishTransform_c (s : State) : (finishTransform s).c = 0 := rfl
@[simp] theorem finishTransform_d (s : State) : (finishTransform s).d = 0 := rfl
@[simp] theorem finishTransform_l (s : State) : (finishTransform s).l = 0 := rfl
@[simp] theorem finishTransform_r (s : State) : (finishTransform s).r = 0 := rfl
@[simp] theorem finishTransform_blk (s : State) : (finishTransform s).blk = 0 := rfl
@[simp] theorem finishTransform_inBuf (s : State) : (finishTransform s).inBuf = [] := rfl
@[simp] theorem finishTransform_resp (s : State) : (finishTransform s).resp = some { status := statusOk, payload := bytesOfBlock s.blk } := rfl
@[simp] theorem finishTransform_inbox (s : State) : (finishTransform s).inbox = s.inbox := rfl
@[simp] theorem finishTransform_sent (s : State) : (finishTransform s).sent = s.sent := rfl

@[simp] theorem deliver_lc (s : State) : (deliver s).lc = s.lc := by
  unfold deliver; split <;> simp_all
@[simp] theorem deliver_rk (s : State) : (deliver s).rk = s.rk := by
  unfold deliver; split <;> simp_all
@[simp] theorem deliver_busy (s : State) : (deliver s).busy = s.busy := by
  unfold deliver; split <;> simp_all
@[simp] theorem deliver_p (s : State) : (deliver s).p = s.p := by
  unfold deliver; split <;> simp_all
@[simp] theorem deliver_n (s : State) : (deliver s).n = s.n := by
  unfold deliver; split <;> simp_all
@[simp] theorem deliver_c (s : State) : (deliver s).c = s.c := by
  unfold deliver; split <;> simp_all
@[simp] theorem deliver_d (s : State) : (deliver s).d = s.d := by
  unfold deliver; split <;> simp_all
@[simp] theorem deliver_l (s : State) : (deliver s).l = s.l := by
  unfold deliver; split <;> simp_all
@[simp] theorem deliver_r (s : State) : (deliver s).r = s.r := by
  unfold deliver; split <;> simp_all
@[simp] theorem deliver_blk (s : State) : (deliver s).blk = s.blk := by
  unfold deliver; split <;> simp_all
@[simp] theorem deliver_inBuf (s : State) : (deliver s).inBuf = s.inBuf := by
  unfold deliver; split <;> simp_all
@[simp] theorem deliver_resp (s : State) : (deliver s).resp = none := by
  unfold deliver; split <;> simp_all
@[simp] theorem deliver_inbox (s : State) : (deliver s).inbox = s.inbox := by
  unfold deliver; split <;> simp_all
@[simp] theorem deliver_sent (s : State) : (deliver s).sent = s.sent ++ s.resp.toList := by
  unfold deliver; split <;> simp_all

/-- Delivery, in one line. -/
theorem deliver_eq (s : State) : deliver s = { s with resp := none, sent := s.sent ++ s.resp.toList } := by
  cases s with
  | mk lc rk busy p n c d l r blk inBuf resp inbox sent => cases resp <;> simp [deliver]

/-- With nothing on the response channel there is nothing to take. -/
theorem deliver_of_idle (s : State) (h : s.resp = none) : deliver s = s := by
  unfold deliver; split <;> simp_all

/-- Delivery of a frame on the response channel. -/
theorem deliver_of_resp (s : State) (r : Response) (h : s.resp = some r) :
    deliver s = { s with resp := none, sent := s.sent ++ [r] } := by
  rw [deliver_eq]; simp [h]

end Sys2Proof.Machine
end

