-- ==== Sys2Proof/Laws/Ops.lean ====
section
/-! SUPPORT. For each shared operation, once, everything it can do; and the cases of a step. -/

namespace Sys2Proof.Machine

@[simp] theorem mapNext_next (f : State → State) (s : State) : mapNext f (.next s) = .next (f s) := rfl
@[simp] theorem mapNext_fault (f : State → State) (e : Fault) : mapNext f (.fault e) = .fault e := rfl
@[simp] theorem mapNext_refused (f : State → State) (e : Refusal) : mapNext f (.refused e) = .refused e := rfl

/-- A mapped outcome that goes on comes from one that goes on. -/
theorem mapNext_eq_next (f : State → State) (o : Outcome) (t : State) (h : mapNext f o = .next t) :
    ∃ s, o = .next s ∧ f s = t := by
  cases o with
  | next s => exact ⟨s, rfl, by simpa using h⟩
  | fault e => simp at h
  | refused e => simp at h

/-- The three positions of the sequencer that name a schedule. -/
theorem schedOfPosition_eq_some (p : BitVec 2) (ks : SchedNo) :
    schedOfPosition p = some ks ↔ p.toNat = (schedIndex ks).val := by
  revert p; cases ks <;> decide

/-- Position 3 names no schedule. -/
theorem schedOfPosition_eq_none (p : BitVec 2) : schedOfPosition p = none ↔ p = 3 := by
  revert p; decide

/-- A word of the store reads back after a write, and every other word stays. -/
theorem readRk_writeRk (ks ks' : SchedNo) (j j' : Fin 16) (v : RoundKey) (s : State) :
    readRk (writeRk ks j v s) ks' j' = if ks = ks' ∧ j = j' then v else readRk s ks' j' := by
  have inj : ∀ a b : SchedNo, (schedIndex a).val = (schedIndex b).val ↔ a = b := by
    intro a b; cases a <;> cases b <;> decide
  simp only [readRk, schedule, writeRk_rk, Fin.getElem_fin, Vector.getElem_set, inj]
  by_cases h : ks = ks'
  · subst h
    simp only [if_true, Vector.getElem_set, Fin.ext_iff, true_and]
  · simp [h]

/-- Every word of the zero store is zero. -/
theorem readRk_zeroStore (s : State) (ks : SchedNo) (j : Fin 16) (h : s.rk = zeroStore) : readRk s ks j = 0 := by
  simp [readRk, schedule, h, zeroStore]

/-- A derivation round goes on exactly at a position of the store, and then it rotates and writes one word. -/
theorem ksRound_eq_next (amount : Nat) (s t : State) :
    ksRound amount s = .next t ↔
      ∃ (ks : SchedNo) (h : s.n.toNat < 16), schedOfPosition s.p = some ks ∧
        t = writeRk ks ⟨s.n.toNat, h⟩ (pc2 (rotl28 s.c amount) (rotl28 s.d amount))
              { s with c := rotl28 s.c amount, d := rotl28 s.d amount } := by
  unfold ksRound
  cases hp : schedOfPosition s.p with
  | none => simp
  | some ks =>
    by_cases h : s.n.toNat < 16
    · simp only [dif_pos h, Host.Outcome.next.injEq]
      constructor
      · rintro rfl
        exact ⟨ks, h, rfl, rfl⟩
      · rintro ⟨ks', _, e, rfl⟩
        cases Option.some.inj e
        rfl
    · simp [h]

/-- Everything a data command does: two faults, else one response. -/
theorem dataCommand_cases (f : Store → Block → Block) (payload : List Byte) (s : State) :
    (s.lc = .empty ∧ dataCommand f payload s = .next (raise .notUsable s)) ∨
    (s.lc = .usable ∧ payload.length ≠ 8 ∧ dataCommand f payload s = .next (raise .invalidInputLength s)) ∨
    (s.lc = .usable ∧ payload.length = 8 ∧
      dataCommand f payload s = .next (respondOk (bytesOfBlock (f s.rk (inputBlock payload))) s)) := by
  unfold dataCommand Config.blockBytes
  cases s.lc with
  | empty => exact .inl (by simp)
  | usable => by_cases h : payload.length = 8 <;> simp [h]

/-- Everything CONSTRUCT does. -/
theorem execConstruct_cases (payload : List Byte) (s : State) :
    (s.lc = .usable ∧ execConstruct payload s = .next (raise .alreadyConstructed s)) ∨
    (s.lc = .empty ∧ payload.length ≠ 24 ∧ execConstruct payload s = .next (raise .invalidKeyLength s)) ∨
    (s.lc = .empty ∧ payload.length = 24 ∧
      execConstruct payload s = .next (respondOk [] { s with rk := deriveStore payload, lc := .usable })) := by
  unfold execConstruct Config.keyBytes
  cases s.lc with
  | usable => exact .inl (by simp)
  | empty => by_cases h : payload.length = 24 <;> simp [h]

/-- Everything DESTROY does. -/
theorem execDestroy_cases (payload : List Byte) (s : State) :
    (payload.length ≠ 0 ∧ execDestroy payload s = .next (raise .illegalCommand s)) ∨
    (payload.length = 0 ∧ execDestroy payload s = .next (respondOk [] (dropEngine s))) := by
  unfold execDestroy
  by_cases h : payload.length = 0 <;> simp [h]

/-- A payload fits a frame exactly when it has at most `LEN_MAX` bytes. -/
theorem payloadFits_iff (cfg : Config.Params) (payload : List Byte) :
    payloadFits payload cfg = true ↔ payload.length ≤ cfg.lenMax.val :=
  decide_eq_true_iff (p := payload.length ≤ cfg.lenMax.val)

/-- A frame can be framed exactly when its payload has at most `LEN_MAX` bytes. -/
theorem frame_wellFormed_iff (cfg : Config.Params) (f : Frame) : f.WellFormed cfg ↔ f.payload.length ≤ cfg.lenMax.val :=
  payloadFits_iff cfg f.payload

/-- A frame that cannot be framed is rejected by the decoder, and only its length is looked at. -/
theorem decodeFrame_of_not_wellFormed (cfg : Config.Params) (f : Frame) (h : ¬ f.WellFormed cfg) :
    decodeFrame f cfg = .error (.payloadTooLong f.payload.length) :=
  if_pos (Nat.lt_of_not_le fun hle => h ((frame_wellFormed_iff cfg f).mpr hle))

/-- `LEN_MAX` decides which frames there are, and nothing about those there are. -/
theorem decodeFrame_params (cfg cfg' : Config.Params) (f : Frame) (h : f.WellFormed cfg) (h' : f.WellFormed cfg') :
    decodeFrame f cfg = decodeFrame f cfg' := by
  unfold decodeFrame
  rw [if_neg (Nat.not_lt.mpr ((frame_wellFormed_iff cfg f).mp h)), if_neg (Nat.not_lt.mpr ((frame_wellFormed_iff cfg' f).mp h'))]

/-- A frame that can be framed decodes to a command of its opcode, or its opcode selects none. -/
theorem decodeFrame_cases (cfg : Config.Params) (f : Frame) (h : f.WellFormed cfg) :
    (f.op = 0x01 ∧ decodeFrame f cfg = .ok (.construct f.payload)) ∨
    (f.op = 0x02 ∧ decodeFrame f cfg = .ok (.compute f.payload)) ∨
    (f.op = 0x03 ∧ decodeFrame f cfg = .ok (.invert f.payload)) ∨
    (f.op = 0x04 ∧ decodeFrame f cfg = .ok (.destroy f.payload)) ∨
    ((f.op ≠ 0x01 ∧ f.op ≠ 0x02 ∧ f.op ≠ 0x03 ∧ f.op ≠ 0x04) ∧ decodeFrame f cfg = .error (.illegalOpcode f.op)) := by
  have h' : ¬ cfg.lenMax.val < f.payload.length := Nat.not_lt.mpr ((frame_wellFormed_iff cfg f).mp h)
  unfold decodeFrame
  rw [if_neg h']
  by_cases h1 : f.op = 0x01
  · exact .inl ⟨h1, if_pos h1⟩
  rw [if_neg h1]
  by_cases h2 : f.op = 0x02
  · exact .inr (.inl ⟨h2, if_pos h2⟩)
  rw [if_neg h2]
  by_cases h3 : f.op = 0x03
  · exact .inr (.inr (.inl ⟨h3, if_pos h3⟩))
  rw [if_neg h3]
  by_cases h4 : f.op = 0x04
  · exact .inr (.inr (.inr (.inl ⟨h4, if_pos h4⟩)))
  · exact .inr (.inr (.inr (.inr ⟨⟨h1, h2, h3, h4⟩, if_neg h4⟩)))

/-- The cases of a step that goes on: reset, a micro-operation, a frame, a frame cut short, nothing to do. -/
theorem stepWith_cases (cfg : Config.Params) (s t : State) (h : stepWith cfg s = .next t) :
    (∃ rest, s.inbox = .reset :: rest ∧ t = assertReset { s with inbox := rest }) ∨
    (∃ job, s.busy = some job ∧ stepMicro job s = .next t) ∨
    (∃ f rest, s.busy = none ∧ s.inbox = .frame f :: rest ∧ stepFrame f { s with inbox := rest } cfg = .next t) ∨
    (∃ f rest, s.busy = none ∧ s.inbox = .cutFrame f :: rest ∧ f.wf cfg = true ∧ t = assertReset { s with inbox := rest }) ∨
    (s.busy = none ∧ s.inbox = [] ∧ t = s) := by
  unfold stepWith at h
  split at h
  · rename_i rest e
    exact .inl ⟨rest, e, by simpa using h.symm⟩
  · rename_i job e _
    exact .inr (.inl ⟨job, e, h⟩)
  · rename_i f rest e1 e2
    exact .inr (.inr (.inl ⟨f, rest, e1, e2, h⟩))
  · rename_i f rest e1 e2
    unfold stepCutFrame at h
    split at h
    · rename_i hf
      exact .inr (.inr (.inr (.inl ⟨f, rest, e1, e2, hf, by simpa using h.symm⟩)))
    · simp at h
  · rename_i e1 e2
    exact .inr (.inr (.inr (.inr ⟨e1, e2, by simpa using h.symm⟩)))

/-- The cases of a step of the machine behind the host's interface. -/
theorem step_cases (s t : State) (h : step s = .next t) :
    (∃ rest, s.inbox = .reset :: rest ∧ t = assertReset { s with inbox := rest }) ∨
    (∃ job, s.busy = some job ∧ stepMicro job s = .next t) ∨
    (∃ f rest, s.busy = none ∧ s.inbox = .frame f :: rest ∧ stepFrame f { s with inbox := rest } = .next t) ∨
    (∃ f rest, s.busy = none ∧ s.inbox = .cutFrame f :: rest ∧ f.wf = true ∧ t = assertReset { s with inbox := rest }) ∨
    (s.busy = none ∧ s.inbox = [] ∧ t = s) :=
  stepWith_cases Config.defaults s t h

end Sys2Proof.Machine
end

