-- ==== Sys2Proof/Laws/PerInstr.lean ====
section
/-! SUPPORT. A fact about every instruction: the leading bits of its encoding are the `match` of its row of spec/opcode_table.json
under the row's `mask`. -/

namespace Sys2Proof.Laws.TableRow

/-- The leading word of an encoding, numbered as the opcode table numbers it: the header of a frame, or the descriptor. -/
def header : Encoded → Nat
  | .frame (op :: len :: _) => 256 * op.toNat + len.toNat
  | .frame [op] => 256 * op.toNat
  | .frame [] => 0
  | .pass d => d.toNat
  | .keyStep two => two.toNat

/-- The `mask` of an instruction's row. -/
def rowMask : Instr → Nat
  | .construct _ => 0xFF00
  | .compute _ => 0xFF00
  | .invert _ => 0xFF00
  | .destroy _ => 0xFF00
  | .desEnc _ => 0b100
  | .desDec _ => 0b100
  | .ksRound1 => 0b1
  | .ksRound2 => 0b1

/-- The `match` of an instruction's row. -/
def rowMatch : Instr → Nat
  | .construct _ => 0x0100
  | .compute _ => 0x0200
  | .invert _ => 0x0300
  | .destroy _ => 0x0400
  | .desEnc _ => 0b000
  | .desDec _ => 0b100
  | .ksRound1 => 0b0
  | .ksRound2 => 0b1

/-- The encoding of `i` is one its row of the table matches. -/
def Statement (i : Instr) : Prop := header (encode i) &&& rowMask i = rowMatch i

/-- The length byte of a header lies outside the opcode's mask. -/
theorem header_and_mask (op len : Byte) : (256 * op.toNat + len.toNat) &&& 0xFF00 = 256 * op.toNat := by
  have h : ∀ n, n < 256 → ((256 * op.toNat + n) &&& 0xFF00) = 256 * op.toNat := by
    intro n hn
    apply Nat.eq_of_testBit_eq
    intro i
    rw [show 256 * op.toNat + n = 2 ^ 8 * op.toNat + n by norm_num, Nat.testBit_and,
      Nat.testBit_two_pow_mul_add _ (by simpa using hn), show 256 * op.toNat = 2 ^ 8 * op.toNat by norm_num,
      Nat.testBit_two_pow_mul]
    by_cases h8 : i < 8
    · have : Nat.testBit 0xFF00 i = false := by interval_cases i <;> decide
      simp [h8, this]
    · by_cases h16 : i < 16
      · have : Nat.testBit 0xFF00 i = true := by interval_cases i <;> first | omega | decide
        simp [h8, this]; omega
      · have : op.toNat.testBit (i - 8) = false :=
          Nat.testBit_lt_two_pow (Nat.lt_of_lt_of_le op.isLt (Nat.pow_le_pow_right (by norm_num) (by omega)))
        simp [h8, this]
  exact h _ len.isLt

theorem construct (payload : List Byte) : Statement (.construct payload) := header_and_mask 0x01 _
theorem compute (payload : List Byte) : Statement (.compute payload) := header_and_mask 0x02 _
theorem invert (payload : List Byte) : Statement (.invert payload) := header_and_mask 0x03 _
theorem destroy (payload : List Byte) : Statement (.destroy payload) := header_and_mask 0x04 _
theorem desEnc (ks : SchedNo) : Statement (.desEnc ks) := by cases ks <;> rfl
theorem desDec (ks : SchedNo) : Statement (.desDec ks) := by cases ks <;> rfl
theorem ksRound1 : Statement .ksRound1 := rfl
theorem ksRound2 : Statement .ksRound2 := rfl

end Sys2Proof.Laws.TableRow
end

