-- ==== Sys2Proof/Laws/Ports.lean ====
section
/-! SUPPORT. What the arbiter and a run for any parameters do, once each. -/

namespace Sys2Proof.Machine

/-- A port is served exactly when it holds a frame, and then it loses its first one. -/
theorem takeFrom_eq_some {n : Nat} (i : Fin n) (ports ports' : Vector (List Frame) n) (f : Frame) :
    takeFrom i ports = some (f, ports') ↔ ∃ rest, ports[i] = f :: rest ∧ ports' = ports.set i rest := by
  unfold takeFrom
  split
  · rename_i h
    simp [h]
  · rename_i g rest h
    simp only [h, Option.some.injEq, Prod.mk.injEq, List.cons.injEq]
    exact ⟨fun ⟨hg, hp⟩ => ⟨rest, ⟨hg, rfl⟩, hp.symm⟩, fun ⟨_, ⟨hg, hr⟩, hp⟩ => ⟨hg, hr ▸ hp.symm⟩⟩

/-- After a port is served, it holds the rest, and every other port what it held. -/
theorem getElem_takeFrom {n : Nat} (i j : Fin n) (ports ports' : Vector (List Frame) n) (f : Frame)
    (h : takeFrom i ports = some (f, ports')) : ports[j] = if j = i then f :: ports'[j] else ports'[j] := by
  obtain ⟨rest, hi, rfl⟩ := (takeFrom_eq_some i ports ports' f).mp h
  by_cases e : j = i
  · subst e
    simpa using hi
  · simp [e, show i.val ≠ j.val from fun h => e (Fin.ext h.symm)]

/-- No grant left: every port is empty, and nothing happens. -/
theorem arbitrate_nil {n : Nat} (ports : Vector (List Frame) n) (events : List HostEvent) :
    arbitrate [] ports = some events ↔ (∀ i : Fin n, ports[i] = []) ∧ events = [] := by
  have all : ports.toList.all List.isEmpty = true ↔ ∀ i : Fin n, ports[i] = [] := by
    rw [List.all_eq_true]
    constructor
    · intro h i
      exact List.isEmpty_iff.mp (h _ (by simp))
    · intro h q hq
      obtain ⟨k, hk, rfl⟩ := List.mem_iff_getElem.mp hq
      simpa using h ⟨k, by simpa using hk⟩
  unfold arbitrate
  by_cases h : ports.toList.all List.isEmpty = true
  · rw [if_pos h]
    exact Iff.intro (fun e => ⟨all.mp h, (Option.some.inj e).symm⟩) (fun e => congrArg some e.2.symm)
  · rw [if_neg h]
    exact Iff.intro (fun e => nomatch e) (fun e => absurd (all.mpr e.1) h)

/-- A granted port's first frame comes next. -/
theorem arbitrate_port {n : Nat} (i : Fin n) (order : List (Grant n)) (ports : Vector (List Frame) n) (events : List HostEvent) :
    arbitrate (.port i :: order) ports = some events ↔
      ∃ f ports' rest, takeFrom i ports = some (f, ports') ∧ arbitrate order ports' = some rest ∧ events = .frame f :: rest := by
  rw [arbitrate]
  cases takeFrom i ports with
  | none => simp
  | some x =>
    simp only [Option.map_eq_some_iff, Option.some.injEq]
    constructor
    · rintro ⟨rest, h, rfl⟩
      exact ⟨x.1, x.2, rest, rfl, h, rfl⟩
    · rintro ⟨_, _, rest, rfl, h, rfl⟩
      exact ⟨rest, h, rfl⟩

/-- No step leaves the state as it is. -/
@[simp] theorem runWith_zero (cfg : Config.Params) (s : State) : runWith cfg 0 s = .next s := rfl

/-- A run goes on from the state after its first step. -/
theorem runWith_succ_of_next (cfg : Config.Params) (k : Nat) (s t : State) (h : stepWith cfg s = .next t) :
    runWith cfg (k + 1) s = runWith cfg k t := by
  simp only [runWith, h]

end Sys2Proof.Machine
end

