-- ==== Sys2Proof/Laws/Run.lean ====
section
/-! SUPPORT. Running several steps, and a step while a command is in execution. -/

namespace Sys2Proof.Machine

/-- No step leaves the state as it is. -/
theorem run_zero (s : State) : (Sys2Proof.core.run 0 s : Outcome) = .next s := rfl

/-- A run goes on from the state after its first step. -/
theorem run_succ_of_next (k : Nat) (s t : State) (h : step s = .next t) :
    (Sys2Proof.core.run (k + 1) s : Outcome) = Sys2Proof.core.run k t := by
  have any : ∀ (M : Host.Core) (s t : M.State), M.step s = .next t → M.run (k + 1) s = M.run k t := by
    intro M s t h
    simp only [Host.Core.run, h]
  exact any Sys2Proof.core s t h

/-- In execution and with no reset asserted, a step is a micro-operation. -/
theorem step_of_busy (s : State) (job : Job) (hb : s.busy = some job) (hr : s.inbox.head? ≠ some .reset) :
    step s = stepMicro job s := by
  unfold step stepWith
  rw [hb]
  match h : s.inbox with
  | [] => rfl
  | .reset :: _ => simp [h] at hr
  | .frame _ :: _ => rfl
  | .cutFrame _ :: _ => rfl

end Sys2Proof.Machine
end

