-- ==== Sys2Proof/Machine/Assembler.lean ====
section
/-! DEFINITION. The assembler syntax and the pseudo-instructions (spec/30_encoding.md rules R71 to R73): a line of text stands for what the
host does to the core, and a response has a written form. Nothing here is part of the core: no step uses it. -/

namespace Sys2Proof.Machine

/-- One assembler line (R71, R73). -/
inductive AsmLine where
  /-- CONSTRUCT, COMPUTE, INVERT, DESTROY or RAW: one frame. -/
  | frame (f : Frame)
  /-- RESET, the reset input. -/
  | reset
  /-- REKEY k. -/
  | rekey (key : List Byte)
  /-- DES1.ENC K, b. -/
  | des1Enc (key block : List Byte)
  /-- DES1.DEC K, b. -/
  | des1Dec (key block : List Byte)
  /-- A blank line, or a comment alone. -/
  | blank
  deriving DecidableEq, Repr

/-- The frame of an instruction mnemonic and its payload (R72). -/
def constructFrame (payload : List Byte) : Frame := { op := 0x01, payload := payload }

/-- See `constructFrame`. -/
def computeFrame (payload : List Byte) : Frame := { op := 0x02, payload := payload }

/-- See `constructFrame`. -/
def invertFrame (payload : List Byte) : Frame := { op := 0x03, payload := payload }

/-- See `constructFrame`. -/
def destroyFrame (payload : List Byte) : Frame := { op := 0x04, payload := payload }

/-- What the host does for a line, the pseudo-instructions expanded (R72, R73). -/
def assemble : AsmLine → List HostEvent
  | .frame f => [.frame f]
  | .reset => [.reset]
  | .rekey key => [.frame (destroyFrame []), .frame (constructFrame key)]
  | .des1Enc key block =>
    [.frame (constructFrame (key ++ key ++ key)), .frame (computeFrame block), .frame (destroyFrame [])]
  | .des1Dec key block =>
    [.frame (constructFrame (key ++ key ++ key)), .frame (invertFrame block), .frame (destroyFrame [])]
  | .blank => []

/-- The value of a hexadecimal digit, either case. -/
def hexDigit (ch : Char) : Option Nat :=
  let code := ch.toNat
  if 48 ≤ code ∧ code ≤ 57 then some (code - 48)
  else if 65 ≤ code ∧ code ≤ 70 then some (code - 55)
  else if 97 ≤ code ∧ code ≤ 102 then some (code - 87)
  else none

/-- Bytes in hexadecimal, two digits each, spaces between bytes ignored (R71). -/
def parseHex : List Char → Option (List Byte)
  | [] => some []
  | ' ' :: rest => parseHex rest
  | hi :: lo :: rest =>
    match hexDigit hi, hexDigit lo, parseHex rest with
    | some h, some l, some bytes => some (BitVec.ofNat 8 (16 * h + l) :: bytes)
    | _, _, _ => none
  | [_] => none

/-- A payload of at most 255 bytes (R71), the default of `LEN_MAX`. -/
def parsePayload (text : List Char) : Option (List Byte) :=
  match parseHex text with
  | some bytes => if payloadFits bytes then some bytes else none
  | none => none

/-- `RAW <op> <payload>`: the first byte is the opcode (R71). DESIGN CHOICE (log 15): the space after it may be missing. -/
def parseRaw (text : List Char) : Option AsmLine :=
  match parseHex text with
  | some (op :: payload) => if payloadFits payload then some (.frame { op := op, payload := payload }) else none
  | _ => none

/-- `K, b`: an 8-byte key and a block (R73). DESIGN CHOICE (log 15): a line whose K is not 8 bytes is no line of the language (R73
calls K the 8-byte key, R72 says that the assembler never checks lengths, and the spec does not say what such a line is); and a
line without a comma, for which R73 gives no form, is read as K with an empty block. -/
def parseKeyBlock (line : List Byte → List Byte → AsmLine) (text : List Char) : Option AsmLine :=
  match parsePayload (text.takeWhile (· ≠ ',')), parsePayload ((text.dropWhile (· ≠ ',')).drop 1) with
  | some key, some block => if key.length = Config.subKeyBytes then some (line key block) else none
  | _, _ => none

/-- One line of text: a mnemonic and its operands; a semicolon starts a comment (R71). What R71 does not say of the form of a line is
DESIGN CHOICE (log 15). -/
def parseLine (line : List Char) : Option AsmLine :=
  let code := (line.takeWhile (· ≠ ';')).dropWhile (· = ' ')
  let word := code.takeWhile (· ≠ ' ')
  let args := code.dropWhile (· ≠ ' ')
  if word = [] then some .blank
  else if word = "CONSTRUCT".toList then (parsePayload args).map (fun b => .frame (constructFrame b))
  else if word = "COMPUTE".toList then (parsePayload args).map (fun b => .frame (computeFrame b))
  else if word = "INVERT".toList then (parsePayload args).map (fun b => .frame (invertFrame b))
  else if word = "DESTROY".toList then (parsePayload args).map (fun b => .frame (destroyFrame b))
  else if word = "RAW".toList then parseRaw args
  else if word = "RESET".toList then (if args.all (· = ' ') then some .reset else none)
  else if word = "REKEY".toList then (parsePayload args).map .rekey
  else if word = "DES1.ENC".toList then parseKeyBlock .des1Enc args
  else if word = "DES1.DEC".toList then parseKeyBlock .des1Dec args
  else none

/-- A hexadecimal digit, upper case. -/
def hexChar (v : Nat) : Char := if v < 10 then Char.ofNat (48 + v) else Char.ofNat (55 + v)

/-- A byte as two digits. -/
def byteText (b : Byte) : List Char := [hexChar (b.toNat / 16), hexChar (b.toNat % 16)]

/-- The name of a status code; a code that is never produced has none (R150). -/
def statusName (status : Byte) : List Char :=
  if status = statusOk then ['O', 'K']
  else if status = faultCode .invalidKeyLength then
    "InvalidKeyLength".toList
  else if status = faultCode .invalidInputLength then
    "InvalidInputLength".toList
  else if status = faultCode .notUsable then "NotUsable".toList
  else if status = faultCode .alreadyConstructed then
    "AlreadyConstructed".toList
  else if status = faultCode .illegalCommand then
    "IllegalCommand".toList
  else []

/-- A response as it is written (R71). -/
def responseText (r : Response) : List Char :=
  "-> ".toList ++ statusName r.status ++
    (if r.payload = [] then [] else ' ' :: r.payload.flatMap byteText)

end Sys2Proof.Machine
end

