-- ==== Sys2Proof/Tests/Slice0.lean ====
section
/-! SUPPORT. Tests: a smoke test of WellFormed, decodings of words written out from the spec, the vectors of
spec/95_test_vectors.md on single operations and single steps, and a witness for the hypotheses of every statement. Expected
values are the spec's. -/

namespace Sys2Proof.Tests

-- The kernel evaluates these tests one after another: elaborated at once, they would each hold a thread.
set_option Elab.async false

open Sys2Proof.Machine

/-! ### Helpers -/

/-- The key of V20. -/
def keyV20 : List Byte :=
  [0x01, 0x23, 0x45, 0x67, 0x89, 0xAB, 0xCD, 0xEF, 0x23, 0x45, 0x67, 0x89, 0xAB, 0xCD, 0xEF, 0x01,
   0x45, 0x67, 0x89, 0xAB, 0xCD, 0xEF, 0x01, 0x23]

/-- The block of V21 row 1. -/
def blockV21 : List Byte := [0x54, 0x68, 0x65, 0x20, 0x71, 0x75, 0x66, 0x63]

/-- The response block of V21 row 1. -/
def outV21 : List Byte := [0xA8, 0x26, 0xFD, 0x8C, 0xE5, 0x3B, 0x85, 0x5F]

/-- A core in EMPTY, with what the host does next. -/
def emptyCore (inbox : List HostEvent) : State := { State.reset with inbox := inbox }

/-- A core in USABLE under the key of V20, with what the host does next. -/
def usableCore (inbox : List HostEvent) : State :=
  { State.reset with lc := .usable, rk := deriveStore keyV20, inbox := inbox }

/-- What an outcome shows of a step: the response taken, LC, and the first word of each schedule. -/
def shown : Outcome → Option (List Response × Lifecycle × List RoundKey)
  | .next s => some (s.sent, s.lc, [readRk s .k1 0, readRk s .k2 0, readRk s .k3 0])
  | .fault _ => none
  | .refused _ => none

/-- BLK after a pass. -/
def shownBlk : Outcome → Option Block
  | .next s => some s.blk
  | .fault _ => none
  | .refused _ => none

/-- C, D and `RK[1][j]` after a derivation round. -/
def shownRound (j : Fin 16) : Outcome → Option (KeyHalf × KeyHalf × RoundKey)
  | .next s => some (s.c, s.d, readRk s .k1 j)
  | .fault _ => none
  | .refused _ => none

/-! ### WellFormed: an ill-formed term for each check, refused, and the boundary, accepted -/

theorem test_wf_construct_too_long : Instr.wf (.construct (List.replicate 256 0)) = false := by decide +kernel
theorem test_wf_compute_too_long : Instr.wf (.compute (List.replicate 256 0)) = false := by decide +kernel
theorem test_wf_invert_too_long : Instr.wf (.invert (List.replicate 256 0)) = false := by decide +kernel
theorem test_wf_destroy_too_long : Instr.wf (.destroy (List.replicate 256 0)) = false := by decide +kernel
theorem test_wf_frame_too_long : Frame.wf { op := 0x7F, payload := List.replicate 256 0 } = false := by decide +kernel
theorem test_wf_longest_payload : Instr.wf (.construct (List.replicate 255 0)) = true := by decide +kernel

/-- `LEN_MAX` is an argument (R9): at 24 a key fits, and one byte more does not. -/
theorem test_wf_lenMax : Instr.wf (.construct keyV20) { lenMax := 24, nPort := 1 } = true ∧
    Instr.wf (.construct (keyV20 ++ [0x00])) { lenMax := 24, nPort := 1 } = false ∧
    decodeFrame (constructFrame (keyV20 ++ [0x00])) { lenMax := 24, nPort := 1 } = .error (.payloadTooLong 25) := by decide

/-! ### Decoding, each word from R61, R63, R67, R69, R70 and V24 -/

theorem test_decode_construct_24 : decode (.frame ([0b00000001, 0b00011000] ++ keyV20)) = .ok (.construct keyV20) := by decide
theorem test_decode_construct_short : decode (.frame [0b00000001, 0b00000001, 0xAA]) = .ok (.construct [0xAA]) := by decide
theorem test_decode_compute : decode (.frame ([0b00000010, 0b00001000] ++ blockV21)) = .ok (.compute blockV21) := by decide
theorem test_decode_invert : decode (.frame ([0b00000011, 0b00001000] ++ outV21)) = .ok (.invert outV21) := by decide
theorem test_decode_destroy : decode (.frame [0b00000100, 0b00000000]) = .ok (.destroy []) := by decide
theorem test_decode_illegal_zero : decode (.frame [0x00, 0x00]) = .error (.illegalOpcode 0x00) := by decide
theorem test_decode_illegal_five : decode (.frame [0x05, 0x00]) = .error (.illegalOpcode 0x05) := by decide
theorem test_decode_truncated : decode (.frame [0x02, 0x08, 0x00]) = .error .truncatedFrame := by decide
theorem test_decode_trailing : decode (.frame [0x04, 0x00, 0x00]) = .error .trailingBytes := by decide
theorem test_decode_pass_enc : decode (.pass 0b011) = .ok (.desEnc .k3) := by decide
theorem test_decode_pass_dec : decode (.pass 0b101) = .ok (.desDec .k1) := by decide
theorem test_decode_pass_reserved :
    decode (.pass 0b000) = .error .reservedSchedule ∧ decode (.pass 0b100) = .error .reservedSchedule := by decide
theorem test_decode_key_step : decode (.keyStep 0b0) = .ok .ksRound1 ∧ decode (.keyStep 0b1) = .ok .ksRound2 := by decide
theorem test_decodeFrame_too_long :
    decodeFrame { op := 0x02, payload := List.replicate 264 0 } = .error (.payloadTooLong 264) := by decide +kernel

/-- One word of each row of the opcode table, as the table numbers bits. -/
theorem test_table_words :
    decodeTableWord 16 0x0100 = some (.construct []) ∧ decodeTableWord 16 0x0208 = some (.compute (List.replicate 8 0)) ∧
    decodeTableWord 16 0x0300 = some (.invert []) ∧ decodeTableWord 16 0x0400 = some (.destroy []) ∧
    decodeTableWord 3 0b001 = some (.desEnc .k1) ∧ decodeTableWord 3 0b110 = some (.desDec .k2) ∧
    decodeTableWord 1 0 = some .ksRound1 ∧ decodeTableWord 1 1 = some .ksRound2 ∧
    decodeTableWord 8 0b011 = some (.desEnc .k3) ∧ decodeTableWord 8 0b101 = some (.desDec .k1) := by decide

/-- From reset, the step runs the word placed where it fetches. -/
theorem test_fetch_words :
    ∀ x ∈ [(16, 0x0118), (16, 0x0208), (16, 0x0308), (16, 0x0400), (3, 0b001), (3, 0b010), (3, 0b011), (3, 0b101), (3, 0b110),
      (3, 0b111), (1, 0), (1, 1)], goesOn (step (State.reset.withFetchWord x.1 x.2)) = true := by decide +kernel

/-! ### Notation and tables -/

/-- V10. -/
theorem test_pc1 : pc1 0x8000000000000000 = 0x01000000000000 ∧ pc1 0x0100000000000000 = 0 ∧
    pc1 0x0000000000000002 = 0x00000008000000 ∧ pc1 0x0101010101010101 = 0 ∧
    pc1 0x133457799BBCDFF1 = 0xF0CCAAF556678F := by decide +kernel

/-- R82. -/
theorem test_split : initialC 0x133457799BBCDFF1 = 0xF0CCAAF ∧ initialD 0x133457799BBCDFF1 = 0x556678F := by decide +kernel

/-- V11. -/
theorem test_rotl28 : rotl28 0x8000001 1 = 0x0000003 ∧ rotl28 0x8000001 2 = 0x0000006 ∧ rotl28 0xC000000 1 = 0x8000001 ∧
    rotl28 0xC000000 2 = 0x0000003 ∧ rotl28 0xF0CCAAF 1 = 0xE19955F ∧ rotl28 0xF0CCAAF 2 = 0xC332ABF := by decide

/-- V12. -/
theorem test_pc2 : pc2 0x8000000 0x0000000 = 0x080000000000 ∧ pc2 0x0000000 0x0000001 = 0x000000000100 ∧
    pc2 0xE19955F 0xAACCF1E = 0x1B02EFFC7072 ∧ pc2 0xF0CCAAF 0x556678F = 0xCB3D8B0E17F5 := by decide +kernel

/-- V1: the sixteen round keys. -/
theorem test_schedule_v1 : (ksDerive 0x133457799BBCDFF1).toList =
    [0x1B02EFFC7072, 0x79AED9DBC9E5, 0x55FC8A42CF99, 0x72ADD6DB351D, 0x7CEC07EB53A8, 0x63A53E507B2F, 0xEC84B7F618BC,
     0xF78A3AC13BFB, 0xE0DBEBEDE781, 0xB1F347BA464F, 0x215FD3DED386, 0x7571F59467E9, 0x97C5D1FABA41, 0x5F43B7F2E73A,
     0xBF918D3D3F0A, 0xCB3D8B0E17F5] := by decide +kernel

/-- V13: a constant key, and the complement of one word. -/
theorem test_schedule_v13 : (ksDerive 0xFEFEFEFEFEFEFEFE).toList = List.replicate 16 0xFFFFFFFFFFFF ∧
    (ksDerive 0xFEDCBA9876543210)[0] = 0xF4FD9864B65A := by decide +kernel

/-- V14. -/
theorem test_ip_fp : ip 0x8000000000000000 = 0x0000000001000000 ∧ fp 0x8000000000000000 = 0x0000000000000040 ∧
    ip 0x0000000000000001 = 0x0000008000000000 ∧ fp 0x0000000000000001 = 0x0200000000000000 ∧
    ip 0xFF00000000000000 = 0x0101010101010101 ∧ ip 0x0123456789ABCDEF = 0xCC00CCFFF0AAF0AA ∧
    fp 0x0A4CD99543423234 = 0x85E813540F0AB405 := by decide +kernel

/-- V15. -/
theorem test_expand : expand 0x80000000 = 0x400000000001 ∧ expand 0x00000001 = 0x800000000002 ∧
    expand 0x0F0F0F0F = 0x85E85E85E85E ∧ expand 0xF0AAF0AA = 0x7A15557A1555 := by decide +kernel

/-- V17. -/
theorem test_permuteP : permuteP 0x80000000 = 0x00800000 ∧ permuteP 0x00000001 = 0x00000800 ∧ permuteP 0xF0000000 = 0x00808202 ∧
    permuteP 0x5C82B597 = 0x234AA9BB := by decide +kernel

/-- V18. -/
theorem test_roundF : roundF 0x00000000 0x000000000000 = 0xD8D8DBBC ∧ roundF 0xFFFFFFFF 0x000000000000 = 0x38DBF9CB ∧
    roundF 0x00000001 0x000000000000 = 0xD05AD19C ∧ roundF 0xF0AAF0AA 0x1B02EFFC7072 = 0x234AA9BB ∧
    roundF 0xEF4A6544 0x79AED9DBC9E5 = 0x3CAB87A3 := by decide +kernel

/-- R122, `SFLAT1`. -/
theorem test_sflat1 : (List.range 64).map (fun g => (sboxLookup sbox1 (BitVec.ofNat 6 g)).toNat) =
    [14, 0, 4, 15, 13, 7, 1, 4, 2, 14, 15, 2, 11, 13, 8, 1,
     3, 10, 10, 6, 6, 12, 12, 11, 5, 9, 9, 5, 0, 3, 7, 8,
     4, 15, 1, 12, 14, 8, 8, 2, 13, 4, 6, 9, 2, 1, 11, 7,
     15, 5, 12, 11, 9, 3, 7, 14, 3, 10, 10, 0, 5, 6, 0, 13] := by decide +kernel

/-- R122, `SFLAT2`. -/
theorem test_sflat2 : (List.range 64).map (fun g => (sboxLookup sbox2 (BitVec.ofNat 6 g)).toNat) =
    [15, 3, 1, 13, 8, 4, 14, 7, 6, 15, 11, 2, 3, 8, 4, 14,
     9, 12, 7, 0, 2, 1, 13, 10, 12, 6, 0, 9, 5, 11, 10, 5,
     0, 13, 14, 8, 7, 10, 11, 1, 10, 3, 4, 15, 13, 4, 1, 2,
     5, 11, 8, 6, 12, 7, 6, 12, 9, 0, 3, 5, 2, 14, 15, 9] := by decide +kernel

/-- R122, `SFLAT3`. -/
theorem test_sflat3 : (List.range 64).map (fun g => (sboxLookup sbox3 (BitVec.ofNat 6 g)).toNat) =
    [10, 13, 0, 7, 9, 0, 14, 9, 6, 3, 3, 4, 15, 6, 5, 10,
     1, 2, 13, 8, 12, 5, 7, 14, 11, 12, 4, 11, 2, 15, 8, 1,
     13, 1, 6, 10, 4, 13, 9, 0, 8, 6, 15, 9, 3, 8, 0, 7,
     11, 4, 1, 15, 2, 14, 12, 3, 5, 11, 10, 5, 14, 2, 7, 12] := by decide +kernel

/-- R122, `SFLAT4`. -/
theorem test_sflat4 : (List.range 64).map (fun g => (sboxLookup sbox4 (BitVec.ofNat 6 g)).toNat) =
    [7, 13, 13, 8, 14, 11, 3, 5, 0, 6, 6, 15, 9, 0, 10, 3,
     1, 4, 2, 7, 8, 2, 5, 12, 11, 1, 12, 10, 4, 14, 15, 9,
     10, 3, 6, 15, 9, 0, 0, 6, 12, 10, 11, 1, 7, 13, 13, 8,
     15, 9, 1, 4, 3, 5, 14, 11, 5, 12, 2, 7, 8, 2, 4, 14] := by decide +kernel

/-- R122, `SFLAT5`. -/
theorem test_sflat5 : (List.range 64).map (fun g => (sboxLookup sbox5 (BitVec.ofNat 6 g)).toNat) =
    [2, 14, 12, 11, 4, 2, 1, 12, 7, 4, 10, 7, 11, 13, 6, 1,
     8, 5, 5, 0, 3, 15, 15, 10, 13, 3, 0, 9, 14, 8, 9, 6,
     4, 11, 2, 8, 1, 12, 11, 7, 10, 1, 13, 14, 7, 2, 8, 13,
     15, 6, 9, 15, 12, 0, 5, 9, 6, 10, 3, 4, 0, 5, 14, 3] := by decide +kernel

/-- R122, `SFLAT6`. -/
theorem test_sflat6 : (List.range 64).map (fun g => (sboxLookup sbox6 (BitVec.ofNat 6 g)).toNat) =
    [12, 10, 1, 15, 10, 4, 15, 2, 9, 7, 2, 12, 6, 9, 8, 5,
     0, 6, 13, 1, 3, 13, 4, 14, 14, 0, 7, 11, 5, 3, 11, 8,
     9, 4, 14, 3, 15, 2, 5, 12, 2, 9, 8, 5, 12, 15, 3, 10,
     7, 11, 0, 14, 4, 1, 10, 7, 1, 6, 13, 0, 11, 8, 6, 13] := by decide +kernel

/-- R122, `SFLAT7`. -/
theorem test_sflat7 : (List.range 64).map (fun g => (sboxLookup sbox7 (BitVec.ofNat 6 g)).toNat) =
    [4, 13, 11, 0, 2, 11, 14, 7, 15, 4, 0, 9, 8, 1, 13, 10,
     3, 14, 12, 3, 9, 5, 7, 12, 5, 2, 10, 15, 6, 8, 1, 6,
     1, 6, 4, 11, 11, 13, 13, 8, 12, 1, 3, 4, 7, 10, 14, 7,
     10, 9, 15, 5, 6, 0, 8, 15, 0, 14, 5, 2, 9, 3, 2, 12] := by decide +kernel

/-- R122, `SFLAT8`. -/
theorem test_sflat8 : (List.range 64).map (fun g => (sboxLookup sbox8 (BitVec.ofNat 6 g)).toNat) =
    [13, 1, 2, 15, 8, 13, 4, 8, 6, 10, 15, 3, 11, 7, 1, 4,
     10, 12, 9, 5, 3, 6, 14, 11, 5, 0, 0, 14, 12, 9, 7, 2,
     7, 2, 11, 1, 4, 14, 1, 7, 9, 4, 12, 10, 14, 8, 2, 13,
     0, 15, 6, 12, 10, 9, 13, 0, 15, 3, 3, 5, 5, 6, 8, 11] := by decide +kernel

/-- V1, `L_16` and `R_16`. -/
theorem test_rounds_v1 : rounds (encKeys (ksDerive 0x133457799BBCDFF1)) 0x0123456789ABCDEF = (0x43423234, 0x0A4CD995) := by decide +kernel

/-- V1, V19: encryption. -/
theorem test_desEncrypt : desEncrypt (ksDerive 0x133457799BBCDFF1) 0x0123456789ABCDEF = 0x85E813540F0AB405 ∧
    desEncrypt (ksDerive 0x0000000000000000) 0x0000000000000000 = 0x8CA64DE9C1B123A7 ∧
    desEncrypt (ksDerive 0xECCBA8866443200E) 0xFEDCBA9876543210 = 0x7A17ECABF0F54BFA := by decide +kernel

/-- V1, V19: decryption. -/
theorem test_desDecrypt : desDecrypt (ksDerive 0x133457799BBCDFF1) 0x85E813540F0AB405 = 0x0123456789ABCDEF ∧
    desDecrypt (ksDerive 0xFEDCBA9876543210) 0xB4CC3FD9D8D95214 = 0x30CED0A65CF974A2 := by decide +kernel

/-- V20: the three schedules. -/
theorem test_deriveStore_v20 : (schedule (deriveStore keyV20) .k1).toList =
    [0x0B02679B49A5, 0x69A659256A26, 0x45D48AB428D2, 0x7289D2A58257, 0x3CE80317A6C2, 0x23251E3C8545,
     0x6C04950AE4C6, 0x5788386CE581, 0xC0C9E926B839, 0x91E307631D72, 0x211F830D893A, 0x7130E5455C54, 0x91C4D04980FC,
     0x5443B681DC8D, 0xB691050A16B5, 0xCA3D03B87032] ∧
    (schedule (deriveStore keyV20) .k2).toList =
    [0xCA3D03B87032, 0x0B02679B49A5, 0xA950BC024B91, 0x9403E8D32115, 0x925A31E30388, 0x8D3B4450330F,
     0x0276CD7610AC, 0x5955604039EB, 0x5788386CE581, 0x8EA0B2AA444B, 0xBE0E0ECED302, 0x6A3208944768, 0x089C7CD89A40,
     0xC4685AD0E638, 0x26EF20393E08, 0xB691050A16B5] ∧
    (schedule (deriveStore keyV20) .k3).toList =
    [0xA691250A17B1, 0xCAB503BC7032, 0x69865B254A66, 0x65D08A94A8D2, 0x3289D2A58655, 0x3C68131BA6C2,
     0x27251C3CC505, 0x4E04950A64C6, 0x5945614039F3, 0xC1C9A927A839, 0x91A387631D52, 0x311E830D813E, 0x7130E4455CC4,
     0x90C4D44880FD, 0x54433683DC8D, 0x66EF20293E0A] := by decide +kernel

/-- V22 rows 4, 5, 5a. -/
theorem test_related_keys :
    computeBlock #v[ksDerive 0x0123456789ABCDEF, ksDerive 0x0123456789ABCDEF, ksDerive 0xFEDCBA9876543210] 0x1122334455667788 =
      0xDB9A39C3A6CA1CA8 ∧
    computeBlock #v[ksDerive 0x0123456789ABCDEF, ksDerive 0xFEDCBA9876543210, ksDerive 0xFEDCBA9876543210] 0x1122334455667788 =
      0xB4CC3FD9D8D95214 ∧
    computeBlock #v[ksDerive 0x0123456789ABCDEF, ksDerive 0xFEDCBA9876543210, ksDerive 0x0123456789ABCDEF] 0x1122334455667788 =
      0x3EB3B72576BBBE83 := by decide +kernel

/-! ### One step per instruction -/

/-- V20, P1 step 2. -/
theorem test_step_construct : shown (step (emptyCore [.frame (constructFrame keyV20)])) =
    some ([{ status := 0x00, payload := [] }], .usable, [0x0B02679B49A5, 0xCA3D03B87032, 0xA691250A17B1]) := by decide +kernel

/-- V23 row 12: lifecycle before length. -/
theorem test_step_construct_refused : shown (step (usableCore [.frame (constructFrame (keyV20.take 23))])) =
    some ([{ status := 0x04, payload := [] }], .usable, [0x0B02679B49A5, 0xCA3D03B87032, 0xA691250A17B1]) := by decide +kernel

/-- V21 row 1. -/
theorem test_step_compute : shown (step (usableCore [.frame (computeFrame blockV21)])) =
    some ([{ status := 0x00, payload := outV21 }], .usable, [0x0B02679B49A5, 0xCA3D03B87032, 0xA691250A17B1]) := by decide +kernel

/-- V23 row 10: lifecycle before length. -/
theorem test_step_compute_not_usable : shown (step (emptyCore [.frame (computeFrame (blockV21.take 7))])) =
    some ([{ status := 0x03, payload := [] }], .empty, [0, 0, 0]) := by decide +kernel

/-- V21 row 9. -/
theorem test_step_invert : shown (step (usableCore [.frame (invertFrame blockV21)])) =
    some ([{ status := 0x00, payload := [0x67, 0x25, 0x87, 0x0A, 0x7B, 0x3A, 0x3B, 0xAE] }], .usable,
      [0x0B02679B49A5, 0xCA3D03B87032, 0xA691250A17B1]) := by decide +kernel

/-- V23 row 7. -/
theorem test_step_invert_length : shown (step (usableCore [.frame (invertFrame (blockV21 ++ [0x00]))])) =
    some ([{ status := 0x02, payload := [] }], .usable, [0x0B02679B49A5, 0xCA3D03B87032, 0xA691250A17B1]) := by decide +kernel

/-- V23 row 15. -/
theorem test_step_destroy : shown (step (usableCore [.frame (destroyFrame [])])) =
    some ([{ status := 0x00, payload := [] }], .empty, [0, 0, 0]) := by decide +kernel

/-- V23 row 14: nothing is zeroed. -/
theorem test_step_destroy_payload : shown (step (usableCore [.frame (destroyFrame [0x00])])) =
    some ([{ status := 0x05, payload := [] }], .usable, [0x0B02679B49A5, 0xCA3D03B87032, 0xA691250A17B1]) := by decide +kernel

/-- V21 row 1, after pass 0. -/
theorem test_exec_desEnc : shownBlk (exec (.desEnc .k1) { usableCore [] with blk := 0x5468652071756663 }) =
    some 0xA28E91724C4BBA31 := by decide +kernel

/-- V21 row 1, after pass 1. -/
theorem test_exec_desDec : shownBlk (exec (.desDec .k2) { usableCore [] with blk := 0xA28E91724C4BBA31 }) =
    some 0x5A2EA7F983A2F53F := by decide +kernel

/-- R87 example. -/
theorem test_exec_ksRound1 : shownRound 0 (exec .ksRound1 { emptyCore [] with c := 0xF0CCAAF, d := 0x556678F }) =
    some (0xE19955F, 0xAACCF1E, 0x1B02EFFC7072) := by decide +kernel

/-- R88 example. -/
theorem test_exec_ksRound2 : shownRound 2 (exec .ksRound2 { emptyCore [] with c := 0xC332ABF, d := 0x5599E3D, n := 2 }) =
    some (0x0CCAAFF, 0x56678F5, 0x55FC8A42CF99) := by decide +kernel

/-- V23 row 13. -/
theorem test_step_illegal : shown (step (usableCore [.frame { op := 0x7F, payload := [0x01, 0x02] }])) =
    some ([{ status := 0x05, payload := [] }], .usable, [0x0B02679B49A5, 0xCA3D03B87032, 0xA691250A17B1]) := by decide +kernel

/-- R170: reset on a core in execution. -/
theorem test_step_reset : shown (step { usableCore [.reset] with busy := some .construct, n := 5 }) =
    some ([], .empty, [0, 0, 0]) := by decide +kernel

/-- R171: a CONSTRUCT cut short. -/
theorem test_step_cut : shown (step (emptyCore [.cutFrame (constructFrame keyV20)])) = some ([], .empty, [0, 0, 0]) := by decide +kernel

/-- R131: the last pass of a COMPUTE answers with BLK. -/
theorem test_step_last_pass : shown (step { usableCore [] with busy := some .compute, p := 2, blk := 0x5A2EA7F983A2F53F }) =
    some ([{ status := 0x00, payload := outV21 }], .usable, [0x0B02679B49A5, 0xCA3D03B87032, 0xA691250A17B1]) := by decide +kernel

/-! ### Ports (R50, R51) -/

/-- Two ports: a COMPUTE at the first, an INVERT and a COMPUTE at the second. -/
def twoPorts : Vector (List Frame) 2 :=
  #v[[computeFrame blockV21], [invertFrame outV21, computeFrame outV21]]

/-- The arbiter takes each port's frames in their order, and none may be left over or missing. -/
theorem test_arbitrate :
    arbitrate [.port 1, .port 0, .port 1] twoPorts =
      some [.frame (invertFrame outV21), .frame (computeFrame blockV21), .frame (computeFrame outV21)] ∧
    arbitrate [.port 1, .port 0] twoPorts = none ∧ arbitrate [.port 0, .port 0, .port 1, .port 1] twoPorts = none := by decide

/-- Each port gets the responses to its own frames. -/
theorem test_responsesOf : responsesOf (n := 2) 1 [.port 1, .reset, .port 0, .cut 1, .port 1]
    [{ status := 0x00, payload := [] }, { status := 0x03, payload := [] }, { status := 0x05, payload := [] }] =
      [{ status := 0x00, payload := [] }, { status := 0x05, payload := [] }] := by decide

/-- V21 row 1 through the second of two ports, after a reset. -/
theorem test_runPorts : (runPorts { lenMax := 24, nPort := 2 } [.reset, .port 0, .port 1]
      #v[[constructFrame keyV20], [computeFrame blockV21]] State.reset).map shown =
    some (some ([{ status := 0x00, payload := [] }, { status := 0x00, payload := outV21 }], .usable,
      [0x0B02679B49A5, 0xCA3D03B87032, 0xA691250A17B1])) := by decide +kernel

/-! ### The assembler (R71 to R73) -/

theorem test_asm_raw : (parseLine "RAW 7F 0102 ; any op".toList).map assemble =
    some [.frame { op := 0x7F, payload := [0x01, 0x02] }] := by decide +kernel
theorem test_asm_construct : (parseLine "CONSTRUCT 0123456789ABCDEF 23456789ABCDEF01 456789ABCDEF0123".toList).map assemble =
    some [.frame (constructFrame keyV20)] := by decide +kernel
theorem test_asm_rekey : (parseLine "REKEY 0123456789ABCDEF 23456789ABCDEF01 456789ABCDEF0123".toList).map assemble =
    some [.frame (destroyFrame []), .frame (constructFrame keyV20)] := by decide +kernel
/-- The model's choice (log 15). -/
theorem test_asm_short_key : parseLine "DES1.ENC 0123, 5468652071756663".toList = none := by decide +kernel
/-- The model's choice (log 15). -/
theorem test_asm_no_comma : parseLine "DES1.ENC 133457799BBCDFF1".toList =
    some (.des1Enc [0x13, 0x34, 0x57, 0x79, 0x9B, 0xBC, 0xDF, 0xF1] []) := by decide +kernel
theorem test_asm_half_byte : parseLine "COMPUTE 1".toList = none := by decide +kernel
theorem test_responseText : responseText { status := 0x00, payload := outV21 } = "-> OK A826FD8CE53B855F".toList ∧
    responseText { status := 0x03, payload := [] } = "-> NotUsable".toList := by decide +kernel
theorem test_responseBytes : responseBytes { status := 0x00, payload := outV21 } = [0x00, 0x08] ++ outV21 := by decide

/-! ### Witnesses: for each statement with hypotheses, a case that meets them; boundary values where there are several -/

/-- RotateLeftReentersTopBits. -/
theorem witness_rotate : (∃ a : Nat, (a = 1 ∨ a = 2) ∧ ∃ i, i < 28 ∧ i + a = 28) ∧ ∃ a : Nat, a = 1 ∨ a = 2 :=
  ⟨⟨1, .inl rfl, 27, by decide, by decide⟩, 2, .inr rfl⟩

/-- PermuteReadsTableEntry, at the first and the last entry of PC2. -/
theorem witness_permute : pc2Table.length = 48 ∧ (∀ x ∈ pc2Table, 1 ≤ x ∧ x ≤ 56) ∧ 1 ≤ 1 ∧ 48 ≤ 48 := by decide

/-- BytesAreBigEndian: the first bit of the first byte and the last bit of the last. -/
theorem witness_bytes : blockV21.length = 8 ∧ 8 * 0 + 0 + 1 = 1 ∧ 8 * 7 + 7 + 1 = 64 := by decide

/-- FrameIsReadBackFromStream: the empty and the longest payload. -/
theorem witness_frame : Frame.WellFormed { op := 0x04, payload := [] } ∧
    Frame.WellFormed { op := 0x01, payload := List.replicate 255 0 } := by decide +kernel

/-- DecodeOfEncodeIsIdentity: the longest payload; EncodeOfDecodeIsIdentity: one word of each format. -/
theorem witness_decode_encode : Instr.WellFormed (.construct (List.replicate 255 0)) ∧
    decode (.frame [0x04, 0x00]) = .ok (.destroy []) ∧ decode (.pass 0b111) = .ok (.desDec .k3) ∧
    decode (.keyStep 1) = .ok .ksRound2 := by decide +kernel

/-- Pc1IgnoresParity, SchedulesAreParityBlind: two sub-keys that differ in parity bits only (V13). -/
theorem witness_parity : (0x123456789ABCDEF0 : SubKey) ≠ 0x133457799BBCDFF1 ∧
    ∀ i, i ≤ 64 → 1 ≤ i → i % 8 ≠ 0 → dbit (0x123456789ABCDEF0 : SubKey) i = dbit (0x133457799BBCDFF1 : SubKey) i := by
  decide +kernel

/-- KsRoundOneRotatesByOne, KsRoundTwoRotatesByTwo: the first word of schedule 1 and the last of schedule 3. -/
theorem witness_ksRound : (State.reset.p.toNat = (schedIndex .k1).val ∧ State.reset.n.toNat = (0 : Fin 16).val) ∧
    ∃ s : State, s.p.toNat = (schedIndex .k3).val ∧ s.n.toNat = (15 : Fin 16).val :=
  ⟨by decide, { State.reset with p := 2, n := 15 }, by decide, by decide⟩

/-- KsRoundPastStoreFaults: each alternative. -/
theorem witness_ksRound_past : (∃ s : State, s.p = 3) ∧ ∃ s : State, 16 ≤ s.n.toNat :=
  ⟨⟨{ State.reset with p := 3 }, rfl⟩, ⟨{ State.reset with n := 16 }, by decide⟩⟩

/-- The halves of the derivation of sub-key `ks` of the V20 key after i rounds. -/
def halvesAfter (start : SubKey → KeyHalf) (ks : SchedNo) (i : Nat) : KeyHalf :=
  (shiftTable.take i).foldl rotl28 (start (subKey keyV20 ks))

/-- ConstructDerivesThreeSchedules, the successful clause: the V20 key from reset. -/
theorem witness_construct : State.reset.lc = .empty ∧ keyV20.length = 24 ∧
    (∀ ks, halvesAfter initialC ks 0 ++ halvesAfter initialD ks 0 =
      permute 56 pc1Table (BitVec.ofNat 64 (be ((keyV20.drop (8 * (schedIndex ks).val)).take 8)))) ∧
    (∀ ks i, i < 16 → halvesAfter initialC ks (i + 1) = rotl28 (halvesAfter initialC ks i) (shiftTable.getD i 0) ∧
      halvesAfter initialD ks (i + 1) = rotl28 (halvesAfter initialD ks i) (shiftTable.getD i 0)) := by
  refine ⟨rfl, rfl, ?_, ?_⟩ <;> intro ks <;> cases ks <;> decide +kernel

/-- ConstructDerivesThreeSchedules, its faulting clauses: USABLE, and lengths 0, 23 and 25 in EMPTY. -/
theorem witness_construct_faults : (usableCore []).lc = .usable ∧ State.reset.lc = .empty ∧
    ([] : List Byte).length ≠ 24 ∧ (keyV20.take 23).length ≠ 24 ∧ (keyV20 ++ [0xFF]).length ≠ 24 := by decide

/-- The L and R of a pass of the V20 core on the V21 block after i rounds under `keys`. -/
def passAfter (keys : List RoundKey) (i : Nat) : Halves := (keys.take i).foldl feistel (initialHalves 0x5468652071756663)

/-- EncryptPassReadsKeysForward. -/
theorem witness_encrypt_pass :
    (passAfter (encKeys (schedule (usableCore []).rk .k1)) 0).1 ++ (passAfter (encKeys (schedule (usableCore []).rk .k1)) 0).2 =
      permute 64 ipTable (0x5468652071756663 : Block) ∧
    ∀ j : Fin 16,
      (passAfter (encKeys (schedule (usableCore []).rk .k1)) (j.val + 1)).1 =
        (passAfter (encKeys (schedule (usableCore []).rk .k1)) j.val).2 ∧
      (passAfter (encKeys (schedule (usableCore []).rk .k1)) (j.val + 1)).2 =
        (passAfter (encKeys (schedule (usableCore []).rk .k1)) j.val).1 ^^^
          roundF (passAfter (encKeys (schedule (usableCore []).rk .k1)) j.val).2 (readRk (usableCore []) .k1 j) := by
  decide +kernel

/-- DecryptPassReadsKeysBackward. -/
theorem witness_decrypt_pass :
    (passAfter (decKeys (schedule (usableCore []).rk .k2)) 0).1 ++ (passAfter (decKeys (schedule (usableCore []).rk .k2)) 0).2 =
      permute 64 ipTable (0x5468652071756663 : Block) ∧
    ∀ j : Fin 16,
      (passAfter (decKeys (schedule (usableCore []).rk .k2)) (j.val + 1)).1 =
        (passAfter (decKeys (schedule (usableCore []).rk .k2)) j.val).2 ∧
      (passAfter (decKeys (schedule (usableCore []).rk .k2)) (j.val + 1)).2 =
        (passAfter (decKeys (schedule (usableCore []).rk .k2)) j.val).1 ^^^
          roundF (passAfter (decKeys (schedule (usableCore []).rk .k2)) j.val).2
            (readRk (usableCore []) .k2 ⟨15 - j.val, by omega⟩) := by
  decide +kernel

/-- PalindromicScheduleIsInvolution: the schedule of a weak key (V19). -/
theorem witness_palindrome : ∀ j : Fin 16, (ksDerive 0x0101010101010101)[j] = (ksDerive 0x0101010101010101)[15 - j.val] := by
  decide +kernel

/-- ComputeEncryptsDecryptsEncrypts, InvertDecryptsEncryptsDecrypts, ComputeAndInvertRoundTrip,
ThreePassesCompleteADataCommand: USABLE and 8 bytes, nothing pending; and lengths 0, 7 and 9. -/
theorem witness_data_command : (usableCore []).lc = .usable ∧ blockV21.length = 8 ∧ (usableCore []).resp = none ∧
    (usableCore []).inbox.head? ≠ some .reset ∧
    ([] : List Byte).length ≠ 8 ∧ (blockV21.take 7).length ≠ 8 ∧ (blockV21 ++ [0]).length ≠ 8 := by decide

/-- ComputeEncryptsDecryptsEncrypts, its clauses on equal schedules: each is met by a store. -/
theorem witness_equal_schedules :
    (schedule (deriveStore (keyV20.take 8 ++ keyV20.take 8 ++ keyV20.drop 16)) .k1 =
      schedule (deriveStore (keyV20.take 8 ++ keyV20.take 8 ++ keyV20.drop 16)) .k2) ∧
    schedule zeroStore .k2 = schedule zeroStore .k3 := by decide +kernel

/-- DestroyZeroesTheStore: a payload of one byte and none; and a store that is zero already. -/
theorem witness_destroy : ([0x00] : List Byte).length ≠ 0 ∧ ([] : List Byte).length = 0 ∧
    ∀ ks j, readRk State.reset ks j = 0 := by
  refine ⟨by decide, rfl, ?_⟩
  intro ks; cases ks <;> decide +kernel

/-- FirstFailingCheckIsReported, OneResponsePerFrame, ResponsesHideTheStore: a frame that can be framed on an idle core, for
each status of R159. -/
theorem witness_next_frame (f : Frame) (h : f.WellFormed) :
    (emptyCore [.frame f]).NextFrame f [] ∧ (emptyCore [.frame f]).resp = none ∧
    (usableCore [.frame f]).NextFrame f [] ∧ (usableCore [.frame f]).resp = none :=
  ⟨⟨rfl, rfl, h⟩, rfl, ⟨rfl, rfl, h⟩, rfl⟩

/-- Each clause of the order of checks is met, at a boundary length. -/
theorem witness_expected_status : expectedStatus .empty 0x00 0 = 0x05 ∧ expectedStatus .usable 0x05 0 = 0x05 ∧
    expectedStatus .usable 0x01 23 = 0x04 ∧ expectedStatus .empty 0x02 7 = 0x03 ∧ expectedStatus .empty 0x03 8 = 0x03 ∧
    expectedStatus .empty 0x01 25 = 0x01 ∧ expectedStatus .usable 0x02 9 = 0x02 ∧ expectedStatus .usable 0x03 7 = 0x02 ∧
    expectedStatus .usable 0x04 1 = 0x05 ∧ expectedStatus .empty 0x01 24 = 0x00 ∧ expectedStatus .usable 0x02 8 = 0x00 ∧
    expectedStatus .empty 0x04 0 = 0x00 := by decide

/-- FaultingCommandHasNoEffect: a COMPUTE in EMPTY. -/
theorem witness_faulting : ∃ t, (emptyCore [.frame (computeFrame blockV21)]).NextFrame (computeFrame blockV21) [] ∧
    (emptyCore [.frame (computeFrame blockV21)]).resp = none ∧
    step (emptyCore [.frame (computeFrame blockV21)]) = .next t ∧
    t.sent = [] ++ [{ status := 0x03, payload := [] }] ∧ (0x03 : Byte) ≠ 0x00 :=
  ⟨_, ⟨rfl, rfl, by decide⟩, rfl, rfl, rfl, by decide⟩

/-- EqualSubKeysGiveSingleDes: three times the key of V1, with other parity bits in the second. -/
theorem witness_equal_subkeys : ∃ t, State.reset.lc = .empty ∧
    exec (.construct [0x13, 0x34, 0x57, 0x79, 0x9B, 0xBC, 0xDF, 0xF1, 0x12, 0x34, 0x56, 0x78, 0x9A, 0xBC, 0xDE, 0xF0,
      0x13, 0x34, 0x57, 0x79, 0x9B, 0xBC, 0xDF, 0xF1]) State.reset = .next t ∧
    ∀ ks i, i ≤ 64 → 1 ≤ i → i % 8 ≠ 0 → dbit (subKey [0x13, 0x34, 0x57, 0x79, 0x9B, 0xBC, 0xDF, 0xF1, 0x12, 0x34, 0x56, 0x78,
      0x9A, 0xBC, 0xDE, 0xF0, 0x13, 0x34, 0x57, 0x79, 0x9B, 0xBC, 0xDF, 0xF1] ks) i = dbit (0x133457799BBCDFF1 : SubKey) i := by
  refine ⟨_, rfl, rfl, ?_⟩
  intro ks; cases ks <;> decide +kernel

/-- DataCommandsArePure: two cores with one LC and one RK that differ elsewhere; DataCommandsCommute: its lists of commands. -/
theorem witness_pure : (usableCore []).lc = (usableCore [.reset]).lc ∧ (usableCore []).rk = (usableCore [.reset]).rk ∧
    (usableCore []).inbox ≠ (usableCore [.reset]).inbox ∧ Instr.invert blockV21 ∈ [Instr.compute blockV21, Instr.invert blockV21] := by
  decide +kernel

/-- ResponsesHideTheStore: its last hypothesis, at a successful CONSTRUCT and at a faulting COMPUTE. -/
theorem witness_hide : ¬ (expectedStatus .empty 0x01 24 = 0x00 ∧ ((0x01 : Byte) = 0x02 ∨ (0x01 : Byte) = 0x03)) ∧
    ¬ (expectedStatus .usable 0x02 7 = 0x00 ∧ ((0x02 : Byte) = 0x02 ∨ (0x02 : Byte) = 0x03)) := by decide

/-- LifecycleTransitions: each event of the table on a core where it is next. -/
theorem witness_lifecycle : (emptyCore [.frame (constructFrame keyV20)]).NextFrame (constructFrame keyV20) [] ∧
    (constructFrame keyV20).op = 0x01 ∧ (constructFrame keyV20).payload.length = 24 ∧
    (usableCore [.frame (destroyFrame [])]).NextFrame (destroyFrame []) [] ∧ (destroyFrame []).op = 0x04 ∧
    (destroyFrame []).payload.length = 0 ∧ (usableCore [.reset]).inbox = .reset :: [] ∧
    step (usableCore []) = .next (usableCore []) ∧ (usableCore []).busy = none :=
  ⟨⟨rfl, rfl, by decide⟩, rfl, rfl, ⟨rfl, rfl, by decide⟩, rfl, rfl, rfl, rfl, rfl⟩

/-- StepRunsDecodedFrame. -/
theorem witness_step_frame : (usableCore [.frame (computeFrame blockV21)]).busy = none ∧
    (usableCore [.frame (computeFrame blockV21)]).inbox = .frame (computeFrame blockV21) :: [] ∧
    decodeFrame (computeFrame blockV21) = .ok (.compute blockV21) := by decide

/-- StepRunsDecodedMicroOp, BusyCoreAcceptsNoFrame: the first pass of an INVERT, and the last round of a derivation, with a frame
held back. -/
theorem witness_step_micro : (∃ t, (accept .invert blockV21 (usableCore [.frame (destroyFrame [])])).busy = some .invert ∧
    (accept .invert blockV21 (usableCore [.frame (destroyFrame [])])).inbox.head? ≠ some .reset ∧
    microFetch .invert 0 0 = some (.pass 0b111) ∧ decode (.pass 0b111) = .ok (.desDec .k3) ∧
    step (accept .invert blockV21 (usableCore [.frame (destroyFrame [])])) = .next t) ∧
    microFetch .construct 2 15 = some (.keyStep 0) ∧ decode (.keyStep 0) = .ok .ksRound1 :=
  ⟨⟨_, rfl, by decide, rfl, rfl, rfl⟩, rfl, rfl⟩

/-- IllegalOpcodeIsAnswered: opcodes 0x00, 0x05 and 0xFF. -/
theorem witness_illegal : ∀ op ∈ [(0x00 : Byte), 0x05, 0xFF], (op = 0x00 ∨ 0x05 ≤ op.toNat) ∧
    Frame.WellFormed { op := op, payload := [] } := by decide

/-- ResetClearsTheCore, AbandonedCommandLeavesResetState: reset on an idle core and on one in execution, and a frame cut short. -/
theorem witness_reset : (usableCore [.reset]).inbox = .reset :: [] ∧
    (∃ s : State, s.busy = some .construct ∧ s.inbox = .reset :: []) ∧
    (emptyCore [.cutFrame (constructFrame keyV20)]).busy = none ∧
    (emptyCore [.cutFrame (constructFrame keyV20)]).inbox = .cutFrame (constructFrame keyV20) :: [] ∧
    (constructFrame keyV20).WellFormed :=
  ⟨rfl, ⟨{ usableCore [.reset] with busy := some .construct }, rfl, rfl⟩, rfl, rfl, by decide⟩

/-- StepKeepsStoreInvariant: a USABLE core meets the invariant, and it steps. -/
theorem witness_invariant : (usableCore []).Inv ∧ ∃ t, step (usableCore []) = .next t := by
  refine ⟨⟨⟨rfl, rfl, rfl, rfl, rfl, rfl, rfl, rfl, rfl, rfl⟩, .inr ⟨rfl, keyV20, rfl, ?_⟩⟩, _, rfl⟩
  intro ks; cases ks <;> (intro j; rfl)

/-- EveryHostActionIsDefined: each kind of event. -/
theorem witness_possible : (usableCore [.frame (computeFrame blockV21), .reset, .cutFrame (destroyFrame [])]).busy = none ∧
    ∀ ev ∈ [HostEvent.frame (computeFrame blockV21), .reset, .cutFrame (destroyFrame [])], ev.Possible := by
  refine ⟨rfl, ?_⟩
  intro ev h
  simp only [List.mem_cons, List.not_mem_nil, or_false] at h
  rcases h with rfl | rfl | rfl
  · exact (by decide : (computeFrame blockV21).WellFormed)
  · trivial
  · exact (by decide : (destroyFrame []).WellFormed)

/-- FortyEightRoundsCompleteConstruct. -/
theorem witness_construct_rounds : State.reset.lc = .empty ∧ keyV20.length = 24 ∧ State.reset.resp = none ∧
    State.reset.inbox.head? ≠ some .reset := by decide

/-- StoreIsWordAddressed: the last address, and the first past the store. -/
theorem witness_addresses : rkAddress .k3 15 = 47 ∧ rkAddress .k1 0 = 0 ∧ readRkAt State.reset 48 = none := by decide

/-- LenMaxBoundsFramesOnly: a key under `LEN_MAX` 24 and 255; one byte more under 24, as a frame and cut short. -/
theorem witness_lenMax :
    (∀ ev ∈ (emptyCore [.frame (constructFrame keyV20)]).inbox.head?,
      ev.Possible { lenMax := 24, nPort := 1 } ∧ ev.Possible Config.defaults) ∧
    (emptyCore [.frame (constructFrame (keyV20 ++ [0]))]).busy = none ∧
    (emptyCore [.frame (constructFrame (keyV20 ++ [0]))]).inbox = .frame (constructFrame (keyV20 ++ [0])) :: [] ∧
    (emptyCore [.cutFrame (constructFrame (keyV20 ++ [0]))]).inbox = .cutFrame (constructFrame (keyV20 ++ [0])) :: [] ∧
    (24 : Fin 256).val < (constructFrame (keyV20 ++ [0])).payload.length := by
  refine ⟨?_, rfl, rfl, rfl, by decide⟩
  intro ev h
  cases Option.some.inj h
  exact ⟨(by decide : (constructFrame keyV20).WellFormed { lenMax := 24, nPort := 1 }),
    (by decide : (constructFrame keyV20).WellFormed)⟩

/-- OnePortKeepsItsOrder: an order that serves all of the port's frames, and one that does not. -/
theorem witness_one_port : (∀ g ∈ [Grant.port (0 : Fin 1)], ∃ i, g = .port i) ∧
    [Grant.port (0 : Fin 1)].length = [destroyFrame []].length ∧ ([] : List (Grant 1)).length ≠ [destroyFrame []].length :=
  ⟨fun _ h => ⟨0, List.mem_singleton.mp h⟩, rfl, by decide⟩

/-- PortOrderIsUnobservable: two orders of the frames of two ports. -/
theorem witness_two_ports : (usableCore []).busy = none ∧ (usableCore []).resp = none ∧
    (∀ (i : Fin 2), ∀ f ∈ twoPorts[i], f.WellFormed { lenMax := 255, nPort := 2 } ∧ (f.op = 0x02 ∨ f.op = 0x03)) ∧
    (∀ g ∈ [Grant.port (0 : Fin 2), .port 1, .port 1] ++ [.port 1, .port 0, .port 1], g = .port 0 ∨ g = .port 1) ∧
    arbitrate [.port 0, .port 1, .port 1] twoPorts ≠ none ∧ arbitrate [.port 1, .port 0, .port 1] twoPorts ≠ none := by
  decide +kernel

end Sys2Proof.Tests
end

/-! PROOFS. The words of spec/00_scope.md section 5: rotation (R14), bit permutation (R13), bytes to values (R12). -/

namespace Sys2Proof.Machine

/-- R14's formula, up to the width. -/
theorem toNat_rotl28 (v : KeyHalf) (s : Nat) :
    (rotl28 v s).toNat = ((v.toNat <<< s) ||| (v.toNat >>> (28 - s))) % 2 ^ 28 := by
  have hshift : v.toNat >>> (28 - s) < 2 ^ 28 := (Nat.shiftRight_le _ _).trans_lt v.isLt
  rw [rotl28, BitVec.toNat_or, BitVec.toNat_shiftLeft, BitVec.toNat_ushiftRight, Nat.or_mod_two_pow,
    Nat.mod_eq_of_lt hshift]

/-- Where a rotation puts bit i. -/
theorem getLsbD_rotl28_add (v : KeyHalf) (s i : Nat) (hs : s ≤ 28) (hi : i < 28) :
    (rotl28 v s).getLsbD ((i + s) % 28) = v.getLsbD i := by
  rw [getLsbD_rotl28 v s _ hs (Nat.mod_lt _ (by decide))]
  congr 1; omega

/-- Settles O1: R14's formula, and the place of each bit. -/
theorem rotateLeftReentersTopBits : Obligations.RotateLeftReentersTopBits := by
  intro v a ha
  have ha28 : a ≤ 28 := by omega
  exact ⟨toNat_rotl28 v a, fun i hi => getLsbD_rotl28_add v a i ha28 hi⟩

/-- Settles O2: the bit-0 form is the DES form with `dbit` written out (R11). -/
theorem permuteReadsTableEntry : Obligations.PermuteReadsTableEntry := by
  intro w n table v hlen _ k h1 h2
  have hbit := dbit_permute table v k hlen h1 h2
  exact ⟨hbit, hbit⟩

/-- One more byte at the least significant end. -/
theorem be_append_singleton (bytes : List Byte) (b : Byte) : be (bytes ++ [b]) = 2 ^ 8 * be bytes + b.toNat := by
  simp [be]

/-- Bit i of the byte that stands q bytes from the least significant end. -/
theorem testBit_be (bytes : List Byte) (q i : Nat) (hi : i < 8) :
    (be bytes).testBit (8 * q + i) = (bytes.reverse.getD q 0).getLsbD i := by
  induction bytes using List.reverseRecOn generalizing q with
  | nil => simp [be]
  | append_singleton bytes b ih =>
    rw [be_append_singleton, Nat.testBit_two_pow_mul_add _ b.isLt, List.reverse_concat]
    cases q with
    | zero => simp [hi, BitVec.getLsbD]
    | succ q =>
      have hq : 8 * (q + 1) + i - 8 = 8 * q + i := by omega
      rw [if_neg (by omega), hq, ih, List.getD_cons_succ]

/-- R42, R44: payload byte k is byte k of the input block, bit by bit. -/
theorem getLsbD_inputBlock (bytes : List Byte) (k i : Nat) (hlen : bytes.length = 8) (hk : k < 8) (hi : i < 8) :
    (inputBlock bytes).getLsbD (8 * (7 - k) + i) = (bytes.getD k 0).getLsbD i := by
  have hin : inputBlock bytes = BitVec.ofNat 64 (be bytes) := by
    rw [inputBlock, memRead8, List.drop_zero, List.take_of_length_le hlen.le]
  have hlt : 8 * (7 - k) + i < 64 := by omega
  have hrev : bytes.reverse.getD (7 - k) 0 = bytes.getD k 0 := by
    rw [List.getD_eq_getElem?_getD, List.getD_eq_getElem?_getD, List.getElem?_reverse (by omega)]
    congr 2; omega
  rw [hin, BitVec.getLsbD_ofNat, testBit_be bytes _ _ hi, hrev, decide_eq_true hlt, Bool.true_and]

/-- Byte k of a block, bit by bit. -/
theorem getLsbD_byteOfBlock (k i : Nat) (v : Block) (hi : i < 8) :
    (byteOfBlock k v).getLsbD i = v.getLsbD (8 * (7 - k) + i) := by
  simp [byteOfBlock, hi]

/-- The k-th of a block's bytes is its byte k. -/
theorem getD_bytesOfBlock (v : Block) (k : Nat) (hk : k < 8) : (bytesOfBlock v).getD k 0 = byteOfBlock k v := by
  simp [bytesOfBlock, hk]

/-- A block is made of its eight bytes (R12). -/
theorem inputBlock_bytesOfBlock (v : Block) : inputBlock (bytesOfBlock v) = v := by
  apply BitVec.eq_of_getLsbD_eq
  intro i hi
  have hk : 7 - i / 8 < 8 := by omega
  have hsplit : i = 8 * (7 - (7 - i / 8)) + i % 8 := by omega
  have hmod : i % 8 < 8 := Nat.mod_lt _ (by decide)
  rw [hsplit, getLsbD_inputBlock _ _ _ (length_bytesOfBlock v) hk hmod, getD_bytesOfBlock v _ hk,
    getLsbD_byteOfBlock _ _ v hmod]

/-- Byte k of an input block is payload byte k (R42). -/
theorem byteOfBlock_inputBlock (bytes : List Byte) (k : Nat) (hlen : bytes.length = 8) (hk : k < 8) :
    byteOfBlock k (inputBlock bytes) = bytes.getD k 0 := by
  apply BitVec.eq_of_getLsbD_eq
  intro i hi
  rw [getLsbD_byteOfBlock k i _ hi, getLsbD_inputBlock bytes k i hlen hk hi]

/-- An 8-byte payload is the bytes of its block (R42). -/
theorem bytesOfBlock_inputBlock (bytes : List Byte) (hlen : bytes.length = 8) :
    bytesOfBlock (inputBlock bytes) = bytes := by
  apply List.ext_getElem (by rw [length_bytesOfBlock, hlen])
  intro k h1 h2
  have hk : k < 8 := hlen ▸ h2
  rw [← List.getD_eq_getElem _ 0 h1, ← List.getD_eq_getElem _ 0 h2, getD_bytesOfBlock _ k hk,
    byteOfBlock_inputBlock bytes k hlen hk]

/-- Settles O3: payload bytes and block bits are the same bits (`getLsbD_inputBlock`), and the two conversions follow from it. -/
theorem bytesAreBigEndian : Obligations.BytesAreBigEndian := by
  refine ⟨be_cons, ?_, getD_bytesOfBlock, inputBlock_bytesOfBlock, bytesOfBlock_inputBlock⟩
  intro bytes k i hlen hk hi
  have hpos : 64 - (8 * k + i + 1) = 8 * (7 - k) + (7 - i) := by omega
  rw [dbit, hpos, getLsbD_inputBlock bytes k (7 - i) hlen hk (by omega)]

end Sys2Proof.Machine

/-! PROOFS. What a step does on each kind of event, and where it looks at `LEN_MAX` (R9, R62). -/

namespace Sys2Proof.Machine

/-- A frame that can be framed and is cut short leaves the reset state (R171). -/
theorem stepCutFrame_of_wellFormed (cfg : Config.Params) (f : Frame) (s : State) (h : f.WellFormed cfg) :
    stepCutFrame f s cfg = .next (assertReset s) := if_pos h

/-- A frame that cannot be framed is refused, cut short or not (log 5). -/
theorem stepCutFrame_of_not_wellFormed (cfg : Config.Params) (f : Frame) (s : State) (h : ¬ f.WellFormed cfg) :
    stepCutFrame f s cfg = .refused .unframablePayload := if_neg h

/-- A frame that cannot be framed is refused (log 5). -/
theorem stepFrame_of_not_wellFormed (cfg : Config.Params) (f : Frame) (s : State) (h : ¬ f.WellFormed cfg) :
    stepFrame f s cfg = .refused .unframablePayload := by
  rw [stepFrame, decodeFrame_of_not_wellFormed cfg f h]
  rfl

/-- A frame that can be framed is answered alike under all parameters that allow it. -/
theorem stepFrame_params (cfg cfg' : Config.Params) (f : Frame) (s : State) (h : f.WellFormed cfg)
    (h' : f.WellFormed cfg') : stepFrame f s cfg = stepFrame f s cfg' := by
  rw [stepFrame, stepFrame, decodeFrame_params cfg cfg' f h h']

/-- Reset comes first, whatever is in execution (R170). -/
theorem stepWith_of_reset (cfg : Config.Params) (s : State) (rest : List HostEvent) (hi : s.inbox = .reset :: rest) :
    stepWith cfg s = .next (assertReset { s with inbox := rest }) := by
  rw [stepWith, hi]

/-- In execution and with no reset asserted, a step is a micro-operation under any parameters (log 1). -/
theorem stepWith_of_busy (cfg : Config.Params) (s : State) (job : Job) (hb : s.busy = some job)
    (hr : s.inbox.head? ≠ some .reset) : stepWith cfg s = stepMicro job s := by
  rw [stepWith, hb]
  match h : s.inbox with
  | [] => rfl
  | .reset :: _ => simp [h] at hr
  | .frame _ :: _ => rfl
  | .cutFrame _ :: _ => rfl

/-- An idle core takes the frame that is next. -/
theorem stepWith_of_frame (cfg : Config.Params) (s : State) (f : Frame) (rest : List HostEvent) (hb : s.busy = none)
    (hi : s.inbox = .frame f :: rest) : stepWith cfg s = stepFrame f { s with inbox := rest } cfg := by
  rw [stepWith, hb, hi]

/-- An idle core takes the frame that is next and is cut short. -/
theorem stepWith_of_cutFrame (cfg : Config.Params) (s : State) (f : Frame) (rest : List HostEvent) (hb : s.busy = none)
    (hi : s.inbox = .cutFrame f :: rest) : stepWith cfg s = stepCutFrame f { s with inbox := rest } cfg := by
  rw [stepWith, hb, hi]

/-- An idle core with nothing to do stays as it is (log 11). -/
theorem stepWith_of_nothing (cfg : Config.Params) (s : State) (hb : s.busy = none) (hi : s.inbox = []) :
    stepWith cfg s = .next s := by
  rw [stepWith, hb, hi]

/-- An idle core steps alike under all parameters that allow what is next. -/
theorem stepWith_params_of_idle (cfg cfg' : Config.Params) (s : State) (hb : s.busy = none)
    (h : ∀ ev ∈ s.inbox.head?, ev.Possible cfg ∧ ev.Possible cfg') : stepWith cfg s = stepWith cfg' s := by
  match hi : s.inbox with
  | [] => rw [stepWith_of_nothing cfg s hb hi, stepWith_of_nothing cfg' s hb hi]
  | .reset :: rest => rw [stepWith_of_reset cfg s rest hi, stepWith_of_reset cfg' s rest hi]
  | .frame f :: rest =>
    obtain ⟨hf, hf'⟩ := h (.frame f) (by simp [hi])
    rw [stepWith_of_frame cfg s f rest hb hi, stepWith_of_frame cfg' s f rest hb hi, stepFrame_params cfg cfg' f _ hf hf']
  | .cutFrame f :: rest =>
    obtain ⟨hf, hf'⟩ := h (.cutFrame f) (by simp [hi])
    rw [stepWith_of_cutFrame cfg s f rest hb hi, stepWith_of_cutFrame cfg' s f rest hb hi,
      stepCutFrame_of_wellFormed cfg f _ hf, stepCutFrame_of_wellFormed cfg' f _ hf']

/-- A core in execution steps alike under all parameters: it accepts no frame (R65). -/
theorem stepWith_params_of_busy (cfg cfg' : Config.Params) (s : State) (job : Job) (hb : s.busy = some job) :
    stepWith cfg s = stepWith cfg' s := by
  by_cases hr : s.inbox.head? = some .reset
  · obtain ⟨rest, hi⟩ := List.head?_eq_some_iff.mp hr
    rw [stepWith_of_reset cfg s rest hi, stepWith_of_reset cfg' s rest hi]
  · rw [stepWith_of_busy cfg s job hb hr, stepWith_of_busy cfg' s job hb hr]

/-- Settles O55: only the acceptance of a frame by an idle core looks at the parameters, and there only at `LEN_MAX`. -/
theorem lenMaxBoundsFramesOnly : Obligations.LenMaxBoundsFramesOnly := by
  constructor
  · intro cfg cfg' s h
    cases hb : s.busy with
    | none => exact stepWith_params_of_idle cfg cfg' s hb h
    | some job => exact stepWith_params_of_busy cfg cfg' s job hb
  · intro cfg s f rest hb hi hlen
    have hf : ¬ f.WellFormed cfg := fun hwf => Nat.not_lt.mpr ((frame_wellFormed_iff cfg f).mp hwf) hlen
    rcases hi with hi | hi
    · rw [stepWith_of_frame cfg s f rest hb hi, stepFrame_of_not_wellFormed cfg f _ hf]
    · rw [stepWith_of_cutFrame cfg s f rest hb hi, stepCutFrame_of_not_wellFormed cfg f _ hf]

end Sys2Proof.Machine

/-! PROOFS. What a frame and a micro-operation leave: the end of a command, the two events that change `LC` and `RK` (R25), and
the micro-operation at the sequencer's position (R132). -/

namespace Sys2Proof.Machine

/-- A successful command ends in the state `State.ended` describes. -/
theorem respondOk_eq_ended (out : List Byte) (s : State) :
    respondOk out s = s.ended (some { status := statusOk, payload := out }) := rfl

/-- A faulting command ends in the state `State.ended` describes. -/
theorem raise_eq_ended (kind : FaultKind) (s : State) :
    raise kind s = s.ended (some { status := faultCode kind, payload := [] }) := rfl

/-- After the response is taken nothing of the command is left (R27). -/
theorem quiet_deliver_ended (s : State) (resp : Option Response) : (deliver (s.ended resp)).Quiet where
  busy := deliver_busy _
  p := deliver_p _
  n := deliver_n _
  c := deliver_c _
  d := deliver_d _
  l := deliver_l _
  r := deliver_r _
  blk := deliver_blk _
  inBuf := deliver_inBuf _
  resp := deliver_resp _

@[simp] theorem ended_lc (s : State) (resp : Option Response) : (s.ended resp).lc = s.lc := rfl
@[simp] theorem ended_rk (s : State) (resp : Option Response) : (s.ended resp).rk = s.rk := rfl

/-- The frame is a CONSTRUCT that succeeds: 24 bytes, in EMPTY (R92). -/
def ConstructsEngine (s : State) (f : Frame) : Prop := f.op = 0x01 ∧ f.payload.length = 24 ∧ s.lc = .empty

/-- The frame is a DESTROY that succeeds: no payload (R136). -/
def DestroysEngine (f : Frame) : Prop := f.op = 0x04 ∧ f.payload.length = 0

/-- Opcode 0x01 selects CONSTRUCT (R63). -/
theorem decodeFrame_of_construct (cfg : Config.Params) (f : Frame) (hf : f.WellFormed cfg) (hop : f.op = 0x01) :
    decodeFrame f cfg = .ok (.construct f.payload) := by
  rcases decodeFrame_cases cfg f hf with ⟨_, h⟩ | ⟨h, _⟩ | ⟨h, _⟩ | ⟨h, _⟩ | ⟨⟨h, _⟩, _⟩
  · exact h
  all_goals simp [hop] at h

/-- Opcode 0x04 selects DESTROY (R63). -/
theorem decodeFrame_of_destroy (cfg : Config.Params) (f : Frame) (hf : f.WellFormed cfg) (hop : f.op = 0x04) :
    decodeFrame f cfg = .ok (.destroy f.payload) := by
  rcases decodeFrame_cases cfg f hf with ⟨h, _⟩ | ⟨h, _⟩ | ⟨h, _⟩ | ⟨_, h⟩ | ⟨⟨_, _, _, h⟩, _⟩
  case inr.inr.inr.inl => exact h
  all_goals simp [hop] at h

/-- A successful CONSTRUCT writes the derived store and enters USABLE (R92). -/
theorem stepFrame_of_constructs (cfg : Config.Params) (f : Frame) (s : State) (hf : f.WellFormed cfg)
    (hc : ConstructsEngine s f) :
    stepFrame f s cfg = .next (deliver (respondOk [] { s with rk := deriveStore f.payload, lc := .usable })) := by
  obtain ⟨hop, hlen, hlc⟩ := hc
  have hexec : execConstruct f.payload s = .next (respondOk [] { s with rk := deriveStore f.payload, lc := .usable }) := by
    rcases execConstruct_cases f.payload s with ⟨h, _⟩ | ⟨_, h, _⟩ | ⟨_, _, h⟩
    · simp [hlc] at h
    · exact absurd hlen h
    · exact h
  simp only [stepFrame, decodeFrame_of_construct cfg f hf hop, exec, hexec, mapNext_next]

/-- A successful DESTROY drops the Engine (R136). -/
theorem stepFrame_of_destroys (cfg : Config.Params) (f : Frame) (s : State) (hf : f.WellFormed cfg) (hd : DestroysEngine f) :
    stepFrame f s cfg = .next (deliver (respondOk [] (dropEngine s))) := by
  obtain ⟨hop, hlen⟩ := hd
  have hexec : execDestroy f.payload s = .next (respondOk [] (dropEngine s)) := by
    rcases execDestroy_cases f.payload s with ⟨h, _⟩ | ⟨_, h⟩
    · exact absurd hlen h
    · exact h
  simp only [stepFrame, decodeFrame_of_destroy cfg f hf hop, exec, hexec, mapNext_next]

/-- A data command, successful or not, ends with a response and nothing else (R133). -/
theorem dataCommand_eq_ended (g : Store → Block → Block) (payload : List Byte) (s : State) :
    ∃ r, dataCommand g payload s = .next (s.ended (some r)) := by
  rcases dataCommand_cases g payload s with ⟨_, h⟩ | ⟨_, _, h⟩ | ⟨_, _, h⟩
  all_goals exact ⟨_, h⟩

/-- Every other frame that can be framed is answered and changes neither LC nor RK (R25). -/
theorem stepFrame_of_keeps (cfg : Config.Params) (f : Frame) (s : State) (hf : f.WellFormed cfg)
    (hc : ¬ ConstructsEngine s f) (hd : ¬ DestroysEngine f) : ∃ r, stepFrame f s cfg = .next (deliver (s.ended (some r))) := by
  have answered : ∀ i, decodeFrame f cfg = .ok i → (∃ r, exec i s = .next (s.ended (some r))) →
      ∃ r, stepFrame f s cfg = .next (deliver (s.ended (some r))) := by
    rintro i hi ⟨r, hr⟩
    exact ⟨r, by simp only [stepFrame, hi, hr, mapNext_next]⟩
  rcases decodeFrame_cases cfg f hf with ⟨hop, hi⟩ | ⟨_, hi⟩ | ⟨_, hi⟩ | ⟨hop, hi⟩ | ⟨_, hi⟩
  · refine answered _ hi ?_
    rcases execConstruct_cases f.payload s with ⟨_, h⟩ | ⟨_, _, h⟩ | ⟨hlc, hlen, _⟩
    · exact ⟨_, h⟩
    · exact ⟨_, h⟩
    · exact absurd ⟨hop, hlen, hlc⟩ hc
  · exact answered _ hi (dataCommand_eq_ended computeBlock f.payload s)
  · exact answered _ hi (dataCommand_eq_ended invertBlock f.payload s)
  · refine answered _ hi ?_
    rcases execDestroy_cases f.payload s with ⟨_, h⟩ | ⟨hlen, _⟩
    · exact ⟨_, h⟩
    · exact absurd ⟨hop, hlen⟩ hd
  · simp only [stepFrame, hi, answerUndecodable, mapNext_next, raise_eq_ended]
    exact ⟨_, rfl⟩

/-- The cases of a frame that is answered: it leaves LC and RK, or it is one of the two that R25 names. -/
theorem stepFrame_eq_next (cfg : Config.Params) (f : Frame) (s t : State) (h : stepFrame f s cfg = .next t) :
    (∃ r, t = deliver (s.ended (some r))) ∨
    (ConstructsEngine s f ∧ t = deliver (respondOk [] { s with rk := deriveStore f.payload, lc := .usable })) ∨
    (DestroysEngine f ∧ t = deliver (respondOk [] (dropEngine s))) := by
  by_cases hf : f.WellFormed cfg
  · by_cases hc : ConstructsEngine s f
    · rw [stepFrame_of_constructs cfg f s hf hc, Host.Outcome.next.injEq] at h
      exact .inr (.inl ⟨hc, h.symm⟩)
    by_cases hd : DestroysEngine f
    · rw [stepFrame_of_destroys cfg f s hf hd, Host.Outcome.next.injEq] at h
      exact .inr (.inr ⟨hd, h.symm⟩)
    · obtain ⟨r, e⟩ := stepFrame_of_keeps cfg f s hf hc hd
      rw [e, Host.Outcome.next.injEq] at h
      exact .inl ⟨r, h.symm⟩
  · simp [stepFrame_of_not_wellFormed cfg f s hf] at h

/-- A micro-operation that decodes is executed, and the sequencer advances (R132). -/
theorem stepMicro_of_decode (job : Job) (s : State) (e : Encoded) (i : Instr) (hfetch : microFetch job s.p s.n = some e)
    (hdec : decode e = .ok i) : stepMicro job s = mapNext (fun t => deliver (advance job t)) (exec i s) := by
  simp only [stepMicro, hfetch, hdec]

end Sys2Proof.Machine

/-! PROOFS. The invariant between commands (R23, R27, R36), the lifecycle (R25), reset (R35) and the step within a command. -/

namespace Sys2Proof.Machine

/-- Every word of a derived store is a word of its sub-key's schedule (R92). -/
theorem readRk_deriveStore (s : State) (key : List Byte) (ks : SchedNo) (j : Fin 16) (h : s.rk = deriveStore key) :
    readRk s ks j = (ksDerive (subKey key ks))[j] := by
  rw [readRk, h]
  cases ks <;> rfl

/-- The store invariant speaks of LC and RK alone. -/
theorem storeOk_of_eq (s t : State) (hlc : t.lc = s.lc) (hrk : t.rk = s.rk) (h : s.StoreOk) : t.StoreOk := by
  unfold State.StoreOk readRk at *
  rwa [hlc, hrk]

/-- EMPTY with the zero store is good (R23). -/
theorem storeOk_of_zeroStore (s : State) (hlc : s.lc = .empty) (hrk : s.rk = zeroStore) : s.StoreOk :=
  .inl ⟨hlc, fun ks j => readRk_zeroStore s ks j hrk⟩

/-- USABLE with the store of a 24-byte key is good (R23). -/
theorem storeOk_of_deriveStore (s : State) (key : List Byte) (hlen : key.length = 24) (hlc : s.lc = .usable)
    (hrk : s.rk = deriveStore key) : s.StoreOk :=
  .inr ⟨hlc, key, hlen, fun ks j => readRk_deriveStore s key ks j hrk⟩

/-- The reset input establishes the invariant, whatever the state (R35, R170). -/
theorem inv_assertReset (s : State) : (assertReset s).Inv where
  quiet := ⟨rfl, rfl, rfl, rfl, rfl, rfl, rfl, rfl, rfl, rfl⟩
  store := storeOk_of_zeroStore _ rfl rfl

/-- The end of a command establishes the quiet part of the invariant; the store part is that of the state it ends in. -/
theorem inv_deliver_ended (s : State) (resp : Option Response) (h : s.StoreOk) : (deliver (s.ended resp)).Inv where
  quiet := quiet_deliver_ended s resp
  store := storeOk_of_eq s _ (by simp) (by simp) h

/-- A frame that is answered leaves the invariant; of the state before, only the store part is needed. -/
theorem inv_stepFrame (cfg : Config.Params) (f : Frame) (s t : State) (hs : s.StoreOk) (h : stepFrame f s cfg = .next t) :
    t.Inv := by
  rcases stepFrame_eq_next cfg f s t h with ⟨r, rfl⟩ | ⟨⟨_, hlen, _⟩, rfl⟩ | ⟨_, rfl⟩
  · exact inv_deliver_ended s _ hs
  · rw [respondOk_eq_ended]
    exact inv_deliver_ended _ _ (storeOk_of_deriveStore _ f.payload hlen rfl rfl)
  · rw [respondOk_eq_ended]
    exact inv_deliver_ended _ _ (storeOk_of_zeroStore _ rfl rfl)

/-- Settles O51, by the cases of a step: reset and a frame establish the invariant, no command is in execution, and nothing
to do changes nothing. -/
theorem stepKeepsStoreInvariant : Obligations.StepKeepsStoreInvariant := by
  intro s t hs h
  rcases step_cases s t h with ⟨rest, _, rfl⟩ | ⟨job, hb, _⟩ | ⟨f, rest, _, _, hf⟩ | ⟨f, rest, _, _, _, rfl⟩ | ⟨_, _, rfl⟩
  · exact inv_assertReset _
  · simp [hs.quiet.busy] at hb
  · exact inv_stepFrame _ f { s with inbox := rest } t (storeOk_of_eq s _ rfl rfl hs.store) hf
  · exact inv_assertReset _
  · exact hs

/-- What changes LC or RK of an idle core: the events of R25's table. -/
theorem step_changes_lifecycle (s t : State) (hb : s.busy = none) (h : step s = .next t) :
    (t.lc = s.lc ∧ t.rk = s.rk) ∨
    (∃ rest, s.inbox = .reset :: rest) ∨ (∃ f rest, s.inbox = .cutFrame f :: rest) ∨
    (∃ f rest, s.inbox = .frame f :: rest ∧ f.op = 0x01 ∧ f.payload.length = 24 ∧ s.lc = .empty) ∨
    (∃ f rest, s.inbox = .frame f :: rest ∧ f.op = 0x04 ∧ f.payload.length = 0) := by
  rcases step_cases s t h with ⟨rest, hi, _⟩ | ⟨job, hjob, _⟩ | ⟨f, rest, _, hi, hf⟩ | ⟨f, rest, _, hi, _⟩ | ⟨_, _, rfl⟩
  · exact .inr (.inl ⟨rest, hi⟩)
  · simp [hb] at hjob
  · rcases stepFrame_eq_next _ f _ t hf with ⟨r, rfl⟩ | ⟨hc, _⟩ | ⟨hd, _⟩
    · exact .inl (by simp)
    · exact .inr (.inr (.inr (.inl ⟨f, rest, hi, hc⟩)))
    · exact .inr (.inr (.inr (.inr ⟨f, rest, hi, hd⟩)))
  · exact .inr (.inr (.inl ⟨f, rest, hi⟩))
  · exact .inl ⟨rfl, rfl⟩

/-- Settles O42: the events of R25's table, and what each leaves. -/
theorem lifecycleTransitions : Obligations.LifecycleTransitions := by
  refine ⟨step_changes_lifecycle, ?construct, ?destroy, ?reset⟩
  case construct =>
    intro s f rest hs hop hlen hlc
    have h := stepFrame_of_constructs Config.defaults f { s with inbox := rest } hs.wf ⟨hop, hlen, hlc⟩
    exact ⟨_, (stepWith_of_frame _ s f rest hs.idle hs.inbox).trans h, deliver_lc _,
      fun ks j => readRk_deriveStore _ f.payload ks j (deliver_rk _)⟩
  case destroy =>
    intro s f rest hs hop hlen
    have h := stepFrame_of_destroys Config.defaults f { s with inbox := rest } hs.wf ⟨hop, hlen⟩
    exact ⟨_, (stepWith_of_frame _ s f rest hs.idle hs.inbox).trans h, deliver_lc _,
      fun ks j => readRk_zeroStore _ ks j (deliver_rk _)⟩
  case reset =>
    intro s rest hi
    exact ⟨_, stepWith_of_reset _ s rest hi, rfl, fun ks j => readRk_zeroStore _ ks j rfl⟩

/-- Settles O44: the step in execution is the micro-operation at the sequencer's position. -/
theorem stepRunsDecodedMicroOp : Obligations.StepRunsDecodedMicroOp := by
  intro s job e i hb hr hfetch hdec
  rw [step_of_busy s job hb hr, stepMicro_of_decode job s e i hfetch hdec]

/-- Settles O49, field by field. -/
theorem resetStateValues : Obligations.ResetStateValues :=
  ⟨rfl, fun ks j => readRk_zeroStore State.reset ks j rfl, rfl, rfl, rfl, rfl, rfl, rfl, rfl, rfl, rfl⟩

/-- The state after reset is one the reset input leaves (R35, R170). -/
theorem assertReset_reset : assertReset State.reset = State.reset := rfl

/-- Settles O50: the reset input establishes the invariant, and the state after reset is one it leaves. -/
theorem resetStateMeetsInvariant : Obligations.ResetStateMeetsInvariant := by
  rw [Obligations.ResetStateMeetsInvariant, ← assertReset_reset]
  exact inv_assertReset State.reset

end Sys2Proof.Machine

/-! PROOFS. The store's words (R43), and a step on a frame that decodes (R50, R141). -/

namespace Sys2Proof.Machine

/-- Position 3 names no schedule, so there is no word to write (log 8). -/
theorem ksRound_of_no_schedule (amount : Nat) (s : State) (h : s.p = 3) :
    ksRound amount s = .fault .noSuchRoundKeyWord := by
  rw [ksRound, (schedOfPosition_eq_none s.p).mpr h]

/-- Past the sixteenth word of a schedule there is no word to write (log 8). -/
theorem ksRound_of_no_word (amount : Nat) (s : State) (h : 16 ≤ s.n.toNat) :
    ksRound amount s = .fault .noSuchRoundKeyWord := by
  unfold ksRound
  split
  · exact dif_neg (Nat.not_lt.mpr h)
  · rfl

/-- Settles O19: of the position, either the schedule or the word in it does not exist. -/
theorem ksRoundPastStoreFaults : Obligations.KsRoundPastStoreFaults := by
  rintro s (h | h)
  · exact ⟨ksRound_of_no_schedule 1 s h, ksRound_of_no_schedule 2 s h⟩
  · exact ⟨ksRound_of_no_word 1 s h, ksRound_of_no_word 2 s h⟩

/-- Every word has its address in the store. -/
theorem rkAddress_lt (ks : SchedNo) (j : Fin 16) : rkAddress ks j < 48 := by
  unfold rkAddress
  omega

/-- Every position of the store holds a schedule. -/
theorem exists_schedIndex_eq : ∀ i : Fin 3, ∃ ks, schedIndex ks = i
  | 0 => ⟨.k1, rfl⟩
  | 1 => ⟨.k2, rfl⟩
  | 2 => ⟨.k3, rfl⟩

/-- Every address of the store is some word's: schedule by a quotient, word by a remainder. -/
theorem exists_rkAddress_eq (a : Nat) (ha : a < 48) : ∃ ks j, rkAddress ks j = a := by
  obtain ⟨ks, hks⟩ := exists_schedIndex_eq ⟨a / 16, by omega⟩
  refine ⟨ks, ⟨a % 16, Nat.mod_lt _ (by decide)⟩, ?_⟩
  rw [rkAddress, hks]
  exact Nat.div_add_mod a 16

/-- The address of a word reads that word back. -/
theorem readRkAt_rkAddress (s : State) (ks : SchedNo) (j : Fin 16) :
    readRkAt s (rkAddress ks j) = some (readRk s ks j) := by
  have hdiv : rkAddress ks j / 16 = (schedIndex ks).val := by unfold rkAddress; omega
  have hmod : rkAddress ks j % 16 = j.val := by unfold rkAddress; omega
  simp only [readRkAt, rkAddress_lt, dif_pos, hdiv, hmod, readRk, schedule, Fin.getElem_fin]

/-- Past the last address the store has no word. -/
theorem readRkAt_of_ge (s : State) (a : Nat) (ha : 48 ≤ a) : readRkAt s a = none :=
  dif_neg (Nat.not_lt.mpr ha)

/-- Settles O20: words and the addresses 0 to 47 correspond, and past them there is none. -/
theorem storeIsWordAddressed : Obligations.StoreIsWordAddressed := fun s =>
  ⟨fun ks j => ⟨rkAddress_lt ks j, readRkAt_rkAddress s ks j⟩, exists_rkAddress_eq, readRkAt_of_ge s⟩

/-- A frame that decodes is executed and its response emitted (R50, R141). -/
theorem stepFrame_of_decode (cfg : Config.Params) (f : Frame) (s : State) (i : Instr) (h : decodeFrame f cfg = .ok i) :
    stepFrame f s cfg = mapNext deliver (exec i s) := by
  rw [stepFrame, h]

/-- Settles O43: an idle core takes the frame, and a frame that decodes is executed. -/
theorem stepRunsDecodedFrame : Obligations.StepRunsDecodedFrame := by
  intro s f rest i hb hi hdec
  rw [step, stepWith_of_frame _ s f rest hb hi, stepFrame_of_decode _ f _ i hdec]

end Sys2Proof.Machine

/-! PROOFS. A data command's response as a function of LC, RK and the payload (R133, R138), and what follows for the order in
which data commands are served, by one port or by several (R50, R51). -/

namespace Sys2Proof.Machine

/-- The response to a data command: LC, then length, then the transform of the block (R133). -/
def dataResponse (transform : Store → Block → Block) (payload : List Byte) (lc : Lifecycle) (rk : Store) : Response :=
  if lc = .empty then { status := faultCode .notUsable, payload := [] }
  else if payload.length ≠ 8 then { status := faultCode .invalidInputLength, payload := [] }
  else { status := statusOk, payload := bytesOfBlock (transform rk (inputBlock payload)) }

/-- A data command ends with its response, and changes nothing else. -/
theorem dataCommand_eq (g : Store → Block → Block) (payload : List Byte) (s : State) :
    dataCommand g payload s = .next (s.ended (some (dataResponse g payload s.lc s.rk))) := by
  unfold dataResponse
  rcases dataCommand_cases g payload s with ⟨hlc, h⟩ | ⟨hlc, hlen, h⟩ | ⟨hlc, hlen, h⟩
  · rw [h, raise_eq_ended, if_pos hlc]
  · rw [h, raise_eq_ended, if_neg (by simp [hlc]), if_pos hlen]
  · rw [h, respondOk_eq_ended, if_neg (by simp [hlc]), if_neg (not_not.mpr hlen)]

/-- COMPUTE and INVERT are data commands (R134, R135). -/
theorem exec_eq_ended_of_data (payload : List Byte) (i : Instr) (hi : i ∈ [Instr.compute payload, Instr.invert payload]) :
    ∃ g, ∀ s, exec i s = .next (s.ended (some (dataResponse g payload s.lc s.rk))) := by
  simp only [List.mem_cons, List.not_mem_nil, or_false] at hi
  rcases hi with rfl | rfl
  · exact ⟨computeBlock, dataCommand_eq computeBlock payload⟩
  · exact ⟨invertBlock, dataCommand_eq invertBlock payload⟩

/-- Settles O40: a data command keeps LC and RK, so the other's response is the same after it as before it. -/
theorem dataCommandsCommute : Obligations.DataCommandsCommute := by
  intro s a b i hi j hj
  obtain ⟨g, hg⟩ := exec_eq_ended_of_data a i hi
  obtain ⟨g', hg'⟩ := exec_eq_ended_of_data b j hj
  exact ⟨_, _, _, _, hg s, hg' _, hg' s, hg _, rfl, rfl, rfl, rfl, rfl⟩

/-- A lone port without frames cannot be served. -/
theorem takeFrom_singleton_nil (i : Fin 1) : takeFrom i #v[[]] = none := by
  obtain rfl : i = 0 := Subsingleton.elim i 0
  rfl

/-- A lone port is served the frame that was sent first. -/
theorem takeFrom_singleton_cons (i : Fin 1) (f : Frame) (q : List Frame) :
    takeFrom i #v[f :: q] = some (f, #v[q]) := by
  obtain rfl : i = 0 := Subsingleton.elim i 0
  rfl

/-- Settles O56, by induction on the grants: each takes the frame that was sent first. -/
theorem onePortKeepsItsOrder : Obligations.OnePortKeepsItsOrder := by
  intro q order hports
  induction order generalizing q with
  | nil => cases q <;> rfl
  | cons g order ih =>
    obtain ⟨⟨i, rfl⟩, hlater⟩ := List.forall_mem_cons.mp hports
    cases q with
    | nil => simp [arbitrate, takeFrom_singleton_nil]
    | cons f q =>
      simp only [arbitrate, takeFrom_singleton_cons, ih q hlater, List.length_cons, Nat.add_right_cancel_iff]
      split <;> rfl

/-- The response to a frame of a data command, COMPUTE at 0x02 and INVERT at 0x03 (R63). -/
def dataFrameResponse (lc : Lifecycle) (rk : Store) (f : Frame) : Response :=
  dataResponse (if f.op = 0x02 then computeBlock else invertBlock) f.payload lc rk

/-- A frame of a data command is answered by the response to it, and changes nothing else. -/
theorem stepFrame_of_data (cfg : Config.Params) (f : Frame) (s : State) (hf : f.WellFormed cfg)
    (hop : f.op = 0x02 ∨ f.op = 0x03) :
    stepFrame f s cfg = .next (deliver (s.ended (some (dataFrameResponse s.lc s.rk f)))) := by
  unfold dataFrameResponse
  rcases decodeFrame_cases cfg f hf with ⟨h, _⟩ | ⟨h, hdec⟩ | ⟨h, hdec⟩ | ⟨h, _⟩ | ⟨⟨_, h2, h3, _⟩, _⟩
  · simp [h] at hop
  · rw [stepFrame_of_decode cfg f s _ hdec, if_pos h]
    exact congrArg (mapNext deliver) (dataCommand_eq computeBlock f.payload s)
  · rw [stepFrame_of_decode cfg f s _ hdec, if_neg (by simp [h])]
    exact congrArg (mapNext deliver) (dataCommand_eq invertBlock f.payload s)
  · simp [h] at hop
  · exact absurd hop (not_or.mpr ⟨h2, h3⟩)

/-- An idle core with a data command's frame next goes on, idle again: the frame is taken and answered, LC and RK stay. -/
theorem stepWith_of_data (cfg : Config.Params) (s : State) (f : Frame) (rest : List HostEvent) (hb : s.busy = none)
    (hi : s.inbox = .frame f :: rest) (hf : f.WellFormed cfg) (hop : f.op = 0x02 ∨ f.op = 0x03) :
    ∃ t, stepWith cfg s = .next t ∧ t.busy = none ∧ t.inbox = rest ∧
      t.sent = s.sent ++ [dataFrameResponse s.lc s.rk f] ∧ t.lc = s.lc ∧ t.rk = s.rk :=
  ⟨_, (stepWith_of_frame cfg s f rest hb hi).trans (stepFrame_of_data cfg f _ hf hop),
    deliver_busy _, deliver_inbox _, deliver_sent _, deliver_lc _, deliver_rk _⟩

/-- Data commands run one after another: each gets the response that the LC and RK of the beginning give it. -/
theorem runWith_of_data (cfg : Config.Params) (frames : List Frame)
    (hdata : ∀ f ∈ frames, f.WellFormed cfg ∧ (f.op = 0x02 ∨ f.op = 0x03)) (s : State) (hb : s.busy = none)
    (hi : s.inbox = frames.map .frame) :
    ∃ t, runWith cfg frames.length s = .next t ∧ t.sent = s.sent ++ frames.map (dataFrameResponse s.lc s.rk) ∧
      t.lc = s.lc ∧ t.rk = s.rk := by
  induction frames generalizing s with
  | nil => exact ⟨s, rfl, by simp, rfl, rfl⟩
  | cons f frames ih =>
    obtain ⟨⟨hf, hop⟩, hlater⟩ := List.forall_mem_cons.mp hdata
    obtain ⟨u, hstep, hub, hui, husent, hulc, hurk⟩ := stepWith_of_data cfg s f _ hb hi hf hop
    obtain ⟨t, hrun, hsent, hlc, hrk⟩ := ih hlater u hub hui
    refine ⟨t, (runWith_succ_of_next cfg _ s u hstep).trans hrun, ?_, hlc.trans hulc, hrk.trans hurk⟩
    rw [hsent, husent, hulc, hurk, List.append_assoc, List.map_cons, List.singleton_append]

/-- An order of ports alone yields frames that the ports hold; and when each frame is answered by itself, each port gets the
answers to its own frames in their order (R51, R60). -/
theorem frames_of_arbitrate {n : Nat} (order : List (Grant n)) (ports : Vector (List Frame) n) (events : List HostEvent)
    (hports : ∀ g ∈ order, ∃ i, g = .port i) (h : arbitrate order ports = some events) :
    ∃ frames : List Frame, events = frames.map .frame ∧ (∀ f ∈ frames, ∃ i : Fin n, f ∈ ports[i]) ∧
      ∀ (answer : Frame → Response) (i : Fin n), responsesOf i order (frames.map answer) = ports[i].map answer := by
  induction order generalizing ports events with
  | nil =>
    obtain ⟨hempty, rfl⟩ := (arbitrate_nil ports events).mp h
    exact ⟨[], rfl, by simp, fun answer i => by simp [responsesOf, hempty i]⟩
  | cons g order ih =>
    obtain ⟨⟨i, rfl⟩, hlater⟩ := List.forall_mem_cons.mp hports
    obtain ⟨f, ports', rest, htake, hrest, rfl⟩ := (arbitrate_port i order ports events).mp h
    obtain ⟨frames, rfl, hmem, hresp⟩ := ih ports' rest hlater hrest
    have hheld : ∀ j : Fin n, ports[j] = if j = i then f :: ports'[j] else ports'[j] :=
      fun j => getElem_takeFrom i j ports ports' f htake
    refine ⟨f :: frames, rfl, List.forall_mem_cons.mpr ⟨⟨i, by simp [hheld i]⟩, ?_⟩, ?_⟩
    · intro f' hf'
      obtain ⟨j, hj⟩ := hmem f' hf'
      refine ⟨j, ?_⟩
      rw [hheld j]
      split
      · exact List.mem_cons_of_mem f hj
      · exact hj
    · intro answer j
      rw [hheld j, List.map_cons, responsesOf, hresp answer j]
      by_cases e : j = i
      · rw [if_pos e.symm, if_pos e, List.map_cons]
      · rw [if_neg (Ne.symm e), if_neg e]

/-- Data commands through several ports: the run goes on, and each port gets the responses that the LC and RK of the beginning
give its frames, whatever the order. -/
theorem runPorts_of_data (cfg : Config.Params) (ports : Ports cfg) (s : State) (order : List (Grant cfg.nPort))
    (hb : s.busy = none)
    (hdata : ∀ (i : Fin cfg.nPort), ∀ f ∈ ports[i], f.WellFormed cfg ∧ (f.op = 0x02 ∨ f.op = 0x03))
    (hports : ∀ g ∈ order, ∃ i, g = .port i) (h : arbitrate order ports ≠ none) :
    ∃ t out, runPorts cfg order ports s = some (.next t) ∧ t.sent = s.sent ++ out ∧
      (∀ i, responsesOf i order out = ports[i].map (dataFrameResponse s.lc s.rk)) ∧ t.lc = s.lc ∧ t.rk = s.rk := by
  obtain ⟨events, hevents⟩ := Option.ne_none_iff_exists'.mp h
  obtain ⟨frames, rfl, hmem, hresp⟩ := frames_of_arbitrate order ports events hports hevents
  have hframes : ∀ f ∈ frames, f.WellFormed cfg ∧ (f.op = 0x02 ∨ f.op = 0x03) := by
    intro f hf
    obtain ⟨i, hi⟩ := hmem f hf
    exact hdata i f hi
  obtain ⟨t, hrun, hsent, hlc, hrk⟩ := runWith_of_data cfg frames hframes { s with inbox := frames.map .frame } hb rfl
  refine ⟨t, _, ?_, hsent, hresp _, hlc, hrk⟩
  rw [runPorts, hevents, Option.map_some, List.length_map, hrun]

/-- Settles O57: in either order a port's responses are the same function of its own frames. -/
theorem portOrderIsUnobservable : Obligations.PortOrderIsUnobservable := by
  intro cfg ports s order order' hb _ hdata hports h h'
  obtain ⟨hfirst, hsecond⟩ := List.forall_mem_append.mp hports
  obtain ⟨t, out, hrun, hsent, hresp, hlc, hrk⟩ := runPorts_of_data cfg ports s order hb hdata hfirst h
  obtain ⟨t', out', hrun', hsent', hresp', hlc', hrk'⟩ := runPorts_of_data cfg ports s order' hb hdata hsecond h'
  exact ⟨t, t', out, out', hrun, hrun', hsent, hsent', fun i => (hresp i).trans (hresp' i).symm, hlc, hrk, hlc', hrk'⟩

end Sys2Proof.Machine

/-! PROOFS. The three formats read back (R61, R63, R69, R70): what decodes to an instruction is exactly that instruction's
encoding, for any value of the open parameters (R9); and the words that the spec prints. -/

namespace Sys2Proof.Machine

/-- A frame is its two header bytes and its payload (R61). -/
theorem length_frameBytes (f : Frame) : f.bytes.length = 2 + f.payload.length := by
  rw [Frame.bytes, List.length_cons, List.length_cons]
  omega

/-- What is read from the front of a byte stream is a frame whose payload length the 8-bit field `len` can say (R61). -/
theorem parseFrame_eq_ok (bytes rest : List Byte) (f : Frame) :
    parseFrame bytes = .ok (f, rest) ↔ f.payload.length < 256 ∧ bytes = f.bytes ++ rest := by
  constructor
  · intro h
    unfold parseFrame at h
    split at h
    · rename_i op len tail
      split at h
      · cases h
      · rename_i hlen
        cases h
        have htake : (tail.take len.toNat).length = len.toNat := List.length_take_of_le (Nat.not_lt.mp hlen)
        refine ⟨htake.trans_lt len.isLt, ?_⟩
        simp only [Frame.bytes, htake, BitVec.ofNat_toNat, BitVec.setWidth_eq, List.cons_append, List.take_append_drop]
    · cases h
  · rintro ⟨hlen, rfl⟩
    have hfield : (BitVec.ofNat 8 f.payload.length).toNat = f.payload.length := Nat.mod_eq_of_lt hlen
    simp [Frame.bytes, parseFrame, hfield]

/-- A frame that can be framed is read back from the front of any byte stream (R61, R62). -/
theorem parseFrame_frameBytes (cfg : Config.Params) (f : Frame) (rest : List Byte) (h : f.WellFormed cfg) :
    parseFrame (f.bytes ++ rest) = .ok (f, rest) :=
  (parseFrame_eq_ok _ rest f).mpr ⟨Nat.lt_of_le_of_lt ((frame_wellFormed_iff cfg f).mp h) cfg.lenMax.isLt, rfl⟩

/-- Settles O7: the layout is the definition's, and the length that `len` says is the payload's. -/
theorem frameIsReadBackFromStream : Obligations.FrameIsReadBackFromStream := fun f rest h =>
  ⟨rfl, length_frameBytes f, parseFrame_frameBytes Config.defaults f rest h⟩

/-- The bytes that encode a command are those of a frame that decodes to it (R63). -/
theorem exists_frame_of_encode (cfg : Config.Params) (i : Instr) (bytes : List Byte) (henc : encode i = .frame bytes)
    (hwf : i.WellFormed cfg) : ∃ f : Frame, bytes = f.bytes ∧ f.WellFormed cfg ∧ decodeFrame f cfg = .ok i := by
  have fits : ∀ payload, payloadFits payload cfg = true → ¬ cfg.lenMax.val < payload.length :=
    fun payload h => Nat.not_lt.mpr ((payloadFits_iff cfg payload).mp h)
  cases i with
  | construct payload => exact ⟨_, (Encoded.frame.inj henc).symm, hwf, if_neg (fits payload hwf)⟩
  | compute payload => exact ⟨_, (Encoded.frame.inj henc).symm, hwf, if_neg (fits payload hwf)⟩
  | invert payload => exact ⟨_, (Encoded.frame.inj henc).symm, hwf, if_neg (fits payload hwf)⟩
  | destroy payload => exact ⟨_, (Encoded.frame.inj henc).symm, hwf, if_neg (fits payload hwf)⟩
  | _ => cases henc

/-- A frame that decodes can be framed (R62). -/
theorem wellFormed_of_decodeFrame (cfg : Config.Params) (f : Frame) (i : Instr) (h : decodeFrame f cfg = .ok i) :
    f.WellFormed cfg := by
  by_contra hf
  simp [decodeFrame_of_not_wellFormed cfg f hf] at h

/-- A frame decodes only to the command that it encodes (R63, R67). -/
theorem encode_of_decodeFrame (cfg : Config.Params) (f : Frame) (i : Instr) (h : decodeFrame f cfg = .ok i) :
    encode i = .frame f.bytes ∧ i.WellFormed cfg := by
  have hf := wellFormed_of_decodeFrame cfg f i h
  obtain ⟨op, payload⟩ := f
  rcases decodeFrame_cases cfg _ hf with ⟨rfl, hdec⟩ | ⟨rfl, hdec⟩ | ⟨rfl, hdec⟩ | ⟨rfl, hdec⟩ | ⟨_, hdec⟩
  case inr.inr.inr.inr => simp [hdec] at h
  all_goals
    obtain rfl := Except.ok.inj (hdec.symm.trans h)
    exact ⟨rfl, hf⟩

/-- The bytes of one frame and no more decode as that frame does. -/
theorem decodeBytes_eq_ok_iff_frame (cfg : Config.Params) (bytes : List Byte) (i : Instr) :
    decodeBytes bytes cfg = .ok i ↔ ∃ f, parseFrame bytes = .ok (f, []) ∧ decodeFrame f cfg = .ok i := by
  unfold decodeBytes
  constructor
  · intro h
    split at h
    · rename_i f hparse
      exact ⟨f, hparse, h⟩
    · cases h
    · cases h
  · rintro ⟨f, hparse, hdec⟩
    rw [hparse]
    exact hdec

/-- Format C (R61, R63). -/
theorem decodeBytes_eq_ok (cfg : Config.Params) (bytes : List Byte) (i : Instr) :
    decodeBytes bytes cfg = .ok i ↔ encode i = .frame bytes ∧ i.WellFormed cfg := by
  rw [decodeBytes_eq_ok_iff_frame]
  constructor
  · rintro ⟨f, hparse, hdec⟩
    obtain ⟨_, rfl⟩ := (parseFrame_eq_ok bytes [] f).mp hparse
    rw [List.append_nil]
    exact encode_of_decodeFrame cfg f i hdec
  · rintro ⟨henc, hwf⟩
    obtain ⟨f, rfl, hf, hdec⟩ := exists_frame_of_encode cfg i bytes henc hwf
    have hparse := parseFrame_frameBytes cfg f [] hf
    rw [List.append_nil] at hparse
    exact ⟨f, hparse, hdec⟩

/-- The `ks` field names the schedule whose field it is (R69). -/
theorem schedOfBits_eq_some (b : BitVec 2) (ks : SchedNo) : schedOfBits b = some ks ↔ b = ks.bits := by
  revert b
  cases ks <;> decide

/-- A pass descriptor is its direction bit and its `ks` field (R69). -/
theorem pass_eq_append (d : BitVec 3) : BitVec.ofBool (d.getLsbD 2) ++ d.extractLsb' 0 2 = d := by
  revert d
  decide

/-- The two micro-operations of a pass, by direction (R69). -/
theorem encode_pass (dir : Bool) (ks : SchedNo) :
    encode (if dir then .desDec ks else .desEnc ks) = .pass (BitVec.ofBool dir ++ ks.bits) := by
  cases dir <;> rfl

/-- A micro-operation of a pass needs no payload to fit. -/
theorem wellFormed_pass (cfg : Config.Params) (dir : Bool) (ks : SchedNo) :
    Instr.WellFormed (if dir then .desDec ks else .desEnc ks) cfg := by
  cases dir <;> rfl

/-- Format P (R69). -/
theorem decodePass_eq_ok (cfg : Config.Params) (d : BitVec 3) (i : Instr) :
    decodePass d = .ok i ↔ encode i = .pass d ∧ i.WellFormed cfg := by
  constructor
  · intro h
    unfold decodePass at h
    split at h
    · rename_i ks hks
      have hd := pass_eq_append d
      rw [(schedOfBits_eq_some _ ks).mp hks] at hd
      obtain rfl := Except.ok.inj h
      exact ⟨(encode_pass _ ks).trans (congrArg Encoded.pass hd), wellFormed_pass cfg _ ks⟩
    · cases h
  · rintro ⟨henc, _⟩
    cases i with
    | desEnc ks => cases henc; cases ks <;> rfl
    | desDec ks => cases henc; cases ks <;> rfl
    | _ => cases henc

/-- Format K (R70). -/
theorem decodeKeyStep_eq (cfg : Config.Params) (two : BitVec 1) (i : Instr) :
    decodeKeyStep two = i ↔ encode i = .keyStep two ∧ i.WellFormed cfg := by
  constructor
  · rintro rfl
    unfold decodeKeyStep
    split
    · rename_i h
      exact ⟨congrArg Encoded.keyStep h.symm, rfl⟩
    · rename_i h
      exact ⟨congrArg Encoded.keyStep (BitVec.eq_zero_or_eq_one two |>.resolve_right h).symm, rfl⟩
  · rintro ⟨henc, _⟩
    cases i with
    | ksRound1 => cases henc; rfl
    | ksRound2 => cases henc; rfl
    | _ => cases henc

/-- The decoder and the encoder are inverse, format by format: a word decodes to the instructions that it is the encoding of
and that have an encoding (R74). -/
theorem decode_eq_ok (cfg : Config.Params) (e : Encoded) (i : Instr) :
    decode e cfg = .ok i ↔ encode i = e ∧ i.WellFormed cfg := by
  cases e with
  | frame bytes => exact decodeBytes_eq_ok cfg bytes i
  | pass d => exact decodePass_eq_ok cfg d i
  | keyStep two => rw [decode, Except.ok.injEq, decodeKeyStep_eq cfg]

/-- Settles O8, from the equivalence of decoding to an instruction and being its encoding. -/
theorem decodeOfEncodeIsIdentity : Obligations.DecodeOfEncodeIsIdentity :=
  fun cfg i hwf => (decode_eq_ok cfg (encode i) i).mpr ⟨rfl, hwf⟩

/-- Settles O9, from the same equivalence. -/
theorem encodeOfDecodeIsIdentity : Obligations.EncodeOfDecodeIsIdentity :=
  fun cfg e i => (decode_eq_ok cfg e i).mp

/-- Settles O10: each legal word is the encoding of its instruction, and the illegal one is one frame with opcode 0x7F. -/
theorem sampleWordsDecode : Obligations.SampleWordsDecode := by
  have decodes {e : Encoded} {i : Instr} (henc : encode i = e) (hwf : i.WellFormed) : decode e = .ok i :=
    (decode_eq_ok Config.defaults e i).mpr ⟨henc, hwf⟩
  exact ⟨decodes rfl rfl, decodes rfl rfl, decodes rfl rfl, decodes rfl rfl, rfl, decodes rfl rfl, decodes rfl rfl,
    decodes rfl rfl, decodes rfl rfl⟩

/-- Settles O6: a closed fact about the eight descriptors. -/
theorem passDescriptorFields : Obligations.PassDescriptorFields := by
  unfold Obligations.PassDescriptorFields
  decide

/-- Settles O5: a closed fact about each of the sixteen rounds, with round 1 in bit 15. -/
theorem shiftWordSelectsRounds : Obligations.ShiftWordSelectsRounds := by
  refine ⟨rfl, fun i h1 h16 => ?_, rfl⟩
  interval_cases i <;> exact ⟨rfl, rfl⟩

end Sys2Proof.Machine

/-! PROOFS. What a step does to the channels (R60): the one response to a frame (R64, R67), and the frames that the host holds
back while a command is in execution (R65). -/

namespace Sys2Proof.Machine

/-- A response that can answer a frame with opcode `op`: a status of R150, and 8 bytes exactly after a COMPUTE or INVERT
without a fault (R64). -/
def Response.Answers (r : Response) (op : Byte) : Prop :=
  r.status.toNat ≤ 5 ∧ r.payload.length = if r.status = 0x00 ∧ (op = 0x02 ∨ op = 0x03) then 8 else 0

/-- A fault's response answers any frame, without payload (R64, R157). -/
theorem answers_fault (kind : FaultKind) (op : Byte) :
    Response.Answers { status := faultCode kind, payload := [] } op := by
  have hle : (faultCode kind).toNat ≤ 5 := by cases kind <;> decide
  have hne : faultCode kind ≠ 0x00 := by cases kind <;> decide
  exact ⟨hle, (if_neg fun h => hne h.1).symm⟩

/-- OK without payload answers a frame of a command that is no data command. -/
theorem answers_ok_nil (op : Byte) (h : ¬ (op = 0x02 ∨ op = 0x03)) :
    Response.Answers { status := statusOk, payload := [] } op :=
  ⟨Nat.zero_le 5, (if_neg fun hop => h hop.2).symm⟩

/-- OK with a block answers a data command's frame. -/
theorem answers_ok_block (v : Block) (op : Byte) (h : op = 0x02 ∨ op = 0x03) :
    Response.Answers { status := statusOk, payload := bytesOfBlock v } op :=
  ⟨Nat.zero_le 5, (length_bytesOfBlock v).trans (if_pos ⟨rfl, h⟩).symm⟩

/-- The response to a data command, faulting or not, answers its frame (R133). -/
theorem answers_dataResponse (g : Store → Block → Block) (payload : List Byte) (lc : Lifecycle) (rk : Store) (op : Byte)
    (h : op = 0x02 ∨ op = 0x03) : (dataResponse g payload lc rk).Answers op := by
  unfold dataResponse
  split
  · exact answers_fault .notUsable op
  split
  · exact answers_fault .invalidInputLength op
  · exact answers_ok_block _ op h

/-- The frame's execution ended in `u` with one response for the host to take, and the channels are otherwise as before. -/
structure AnsweredIn (s u : State) (f : Frame) (r : Response) : Prop where
  inbox : u.inbox = s.inbox
  sent : u.sent = s.sent
  resp : u.resp = some r
  answers : r.Answers f.op

/-- A frame whose opcode selects no command is answered IllegalCommand (R67). -/
theorem stepFrame_of_illegal (cfg : Config.Params) (f : Frame) (s : State)
    (h : decodeFrame f cfg = .error (.illegalOpcode f.op)) :
    stepFrame f s cfg = .next (deliver (raise .illegalCommand s)) := by
  rw [stepFrame, h]
  rfl

/-- Every frame that can be framed is executed to its one response (R50, R64). -/
theorem stepFrame_answered (cfg : Config.Params) (f : Frame) (s : State) (hf : f.WellFormed cfg) :
    ∃ u r, stepFrame f s cfg = .next (deliver u) ∧ AnsweredIn s u f r := by
  have executed (i : Instr) (hdec : decodeFrame f cfg = .ok i) (u : State) (hexec : exec i s = .next u) :
      stepFrame f s cfg = .next (deliver u) := by
    rw [stepFrame_of_decode cfg f s i hdec, hexec, mapNext_next]
  rcases decodeFrame_cases cfg f hf with ⟨hop, hdec⟩ | ⟨hop, hdec⟩ | ⟨hop, hdec⟩ | ⟨hop, hdec⟩ | ⟨_, hdec⟩
  · rcases execConstruct_cases f.payload s with ⟨_, h⟩ | ⟨_, _, h⟩ | ⟨_, _, h⟩
    · exact ⟨_, _, executed _ hdec _ h, rfl, rfl, rfl, answers_fault .alreadyConstructed _⟩
    · exact ⟨_, _, executed _ hdec _ h, rfl, rfl, rfl, answers_fault .invalidKeyLength _⟩
    · exact ⟨_, _, executed _ hdec _ h, rfl, rfl, rfl, answers_ok_nil _ (by simp [hop])⟩
  · exact ⟨_, _, executed _ hdec _ (dataCommand_eq computeBlock f.payload s), rfl, rfl, rfl,
      answers_dataResponse _ _ _ _ _ (.inl hop)⟩
  · exact ⟨_, _, executed _ hdec _ (dataCommand_eq invertBlock f.payload s), rfl, rfl, rfl,
      answers_dataResponse _ _ _ _ _ (.inr hop)⟩
  · rcases execDestroy_cases f.payload s with ⟨_, h⟩ | ⟨_, h⟩
    · exact ⟨_, _, executed _ hdec _ h, rfl, rfl, rfl, answers_fault .illegalCommand _⟩
    · exact ⟨_, _, executed _ hdec _ h, rfl, rfl, rfl, answers_ok_nil _ (by simp [hop])⟩
  · exact ⟨_, _, stepFrame_of_illegal cfg f s hdec, rfl, rfl, rfl, answers_fault .illegalCommand _⟩

/-- Settles O36: the frame is executed to its one response, which the host takes. -/
theorem oneResponsePerFrame : Obligations.OneResponsePerFrame := by
  intro s f rest hs _
  obtain ⟨u, r, hstep, hu⟩ := stepFrame_answered Config.defaults f { s with inbox := rest } hs.wf
  obtain ⟨hstatus, hpayload⟩ := hu.answers
  refine ⟨deliver u, r, (stepWith_of_frame _ s f rest hs.idle hs.inbox).trans hstep, ?_, deliver_resp u, ?_, hstatus,
    hpayload, rfl⟩
  · rw [deliver_inbox, hu.inbox]
  · rw [deliver_sent, hu.sent, hu.resp, Option.toList_some]

/-- An opcode of R67's ranges is none of the four commands' (R63). -/
theorem selects_no_command (op : Byte) (h : op = 0x00 ∨ 0x05 ≤ op.toNat) :
    op ≠ 0x01 ∧ op ≠ 0x02 ∧ op ≠ 0x03 ∧ op ≠ 0x04 := by
  refine ⟨?_, ?_, ?_, ?_⟩ <;> rintro rfl <;> simp at h

/-- A frame that can be framed with such an opcode is rejected by name (R67). -/
theorem decodeFrame_of_illegal (cfg : Config.Params) (f : Frame) (hf : f.WellFormed cfg)
    (h : f.op = 0x00 ∨ 0x05 ≤ f.op.toNat) :
    decodeFrame f cfg = .error (.illegalOpcode f.op) := by
  obtain ⟨h1, h2, h3, h4⟩ := selects_no_command f.op h
  rcases decodeFrame_cases cfg f hf with ⟨hop, _⟩ | ⟨hop, _⟩ | ⟨hop, _⟩ | ⟨hop, _⟩ | ⟨_, hdec⟩
  · exact absurd hop h1
  · exact absurd hop h2
  · exact absurd hop h3
  · exact absurd hop h4
  · exact hdec

/-- Settles O45: the decoder rejects the opcode, and the step ends the command with IllegalCommand. -/
theorem illegalOpcodeIsAnswered : Obligations.IllegalOpcodeIsAnswered := by
  intro s f rest hs _ hop
  have hdec := decodeFrame_of_illegal Config.defaults f hs.wf hop
  refine ⟨hdec, ?_⟩
  rw [step, stepWith_of_frame _ s f rest hs.idle hs.inbox, stepFrame_of_illegal _ f _ hdec, deliver_of_resp _ _ rfl]
  rfl

/-- No instruction takes a frame from the command channel. -/
theorem exec_inbox (i : Instr) (s t : State) (h : exec i s = .next t) : t.inbox = s.inbox := by
  cases i with
  | construct payload =>
    rcases execConstruct_cases payload s with ⟨_, e⟩ | ⟨_, _, e⟩ | ⟨_, _, e⟩
    all_goals
      cases e.symm.trans h
      rfl
  | compute payload => cases (dataCommand_eq computeBlock payload s).symm.trans h; rfl
  | invert payload => cases (dataCommand_eq invertBlock payload s).symm.trans h; rfl
  | destroy payload =>
    rcases execDestroy_cases payload s with ⟨_, e⟩ | ⟨_, e⟩
    all_goals
      cases e.symm.trans h
      rfl
  | desEnc ks => cases h; rfl
  | desDec ks => cases h; rfl
  | ksRound1 => obtain ⟨_, _, _, rfl⟩ := (ksRound_eq_next 1 s t).mp h; rfl
  | ksRound2 => obtain ⟨_, _, _, rfl⟩ := (ksRound_eq_next 2 s t).mp h; rfl

/-- The sequencer takes no frame from the command channel. -/
theorem advance_inbox (job : Job) (s : State) : (advance job s).inbox = s.inbox := by
  have derivation : (advanceDerivation s).inbox = s.inbox := by unfold advanceDerivation; split_ifs <;> rfl
  have pass : (advancePass s).inbox = s.inbox := by unfold advancePass; split_ifs <;> rfl
  cases job with
  | construct => exact derivation
  | compute => exact pass
  | invert => exact pass

/-- A micro-operation takes no frame from the command channel (R65). -/
theorem stepMicro_inbox (job : Job) (s t : State) (h : stepMicro job s = .next t) : t.inbox = s.inbox := by
  unfold stepMicro at h
  split at h
  · split at h
    · obtain ⟨u, hexec, rfl⟩ := mapNext_eq_next _ _ t h
      rw [deliver_inbox, advance_inbox, exec_inbox _ s u hexec]
    · cases h
  · cases h

/-- Settles O46: with no reset next, the step is a micro-operation of the command in execution. -/
theorem busyCoreAcceptsNoFrame : Obligations.BusyCoreAcceptsNoFrame := by
  intro s t job hb hr h
  rw [step_of_busy s job hb hr] at h
  exact stepMicro_inbox job s t h

end Sys2Proof.Machine

/-! PROOFS. The key scheduler as a function (spec/40_keyschedule.md sections 1 to 5): the two selections (R81, R82, R85), the
rotations, and the laws of `KS` (R91). -/

namespace Sys2Proof.Machine

/-- A permutation depends only on the bits that its table names. -/
theorem permute_congr {w : Nat} (n : Nat) (table : List Nat) (v v' : BitVec w)
    (h : ∀ i ∈ table, dbit v i = dbit v' i) : permute n table v = permute n table v' := by
  rw [permute, permute, List.map_congr_left h]

/-- A permutation commutes with the complement (R13). -/
theorem permute_not {w n : Nat} (table : List Nat) (v : BitVec w) (hlen : table.length = n)
    (hrange : ∀ i ∈ table, 1 ≤ i ∧ i ≤ w) : permute n table (~~~v) = ~~~permute n table v := by
  apply BitVec.eq_of_getLsbD_eq
  intro i hi
  rw [getLsbD_permute table _ i hlen hi, dbit_not v _ (hrange _ (List.getElem_mem _)), BitVec.getLsbD_not,
    getLsbD_permute table v i hlen hi, decide_eq_true hi, Bool.true_and]

/-- `PC1` names no parity bit (R80). -/
theorem pc1Table_mem : ∀ i ∈ pc1Table, 1 ≤ i ∧ i ≤ 64 ∧ i % 8 ≠ 0 := by decide

/-- `PC2` names bits of `C || D` (R84). -/
theorem pc2Table_mem : ∀ i ∈ pc2Table, 1 ≤ i ∧ i ≤ 56 := by decide

/-- The parity bits have no influence on `CD_0` (R81). -/
theorem pc1_congr (k k' : SubKey) (h : ∀ i, 1 ≤ i → i ≤ 64 → i % 8 ≠ 0 → dbit k i = dbit k' i) : pc1 k = pc1 k' := by
  refine permute_congr 56 pc1Table k k' fun i hi => ?_
  obtain ⟨h1, h64, h8⟩ := pc1Table_mem i hi
  exact h i h1 h64 h8

/-- `C_0` and `D_0` are the halves of `CD_0` (R82). -/
theorem initialC_append_initialD (k : SubKey) : initialC k ++ initialD k = pc1 k := by
  rw [initialC, initialD, BitVec.extractLsb'_append_extractLsb'_eq_extractLsb' (Nat.zero_add 28).symm]
  exact BitVec.extractLsb'_eq_self

/-- No other two halves make up `CD_0`. -/
theorem eq_initial_of_append (c d : KeyHalf) (k : SubKey) (h : c ++ d = pc1 k) : c = initialC k ∧ d = initialD k := by
  rw [initialC, initialD, ← h, BitVec.extractLsb'_append_eq_left, BitVec.extractLsb'_append_eq_right]
  exact ⟨rfl, rfl⟩

/-- Settles O11: `PC1` names no parity bit. -/
theorem pc1IgnoresParity : Obligations.Pc1IgnoresParity :=
  ⟨fun k => ⟨rfl, initialC_append_initialD k⟩, pc1_congr⟩

/-- DES bits 1 to 28 of `C || D` are those of `C`. -/
theorem dbit_append_left (c d : KeyHalf) (i : Nat) (hi : i ≤ 28) : dbit (c ++ d) i = dbit c i := by
  rw [dbit, dbit, BitVec.getLsbD_append, if_neg (by omega)]
  congr 1; omega

/-- DES bits 29 to 56 of `C || D` are those of `D`. -/
theorem dbit_append_right (c d : KeyHalf) (i : Nat) (hi : 28 < i) : dbit (c ++ d) i = dbit d (i - 28) := by
  rw [dbit, dbit, BitVec.getLsbD_append, if_pos (by omega)]
  congr 1; omega

/-- The first 24 entries of `PC2` select from C (R84). -/
theorem pc2Table_left : ∀ k < 24, pc2Table.getD k 0 ≤ 28 := by decide

/-- The last 24 entries of `PC2` select from D (R84). -/
theorem pc2Table_right : ∀ k < 24, 28 < pc2Table.getD (24 + k) 0 := by decide

/-- A bit of a round key is the bit of `C || D` that its entry of `PC2` names (R85, R86). -/
theorem getLsbD_pc2 (c d : KeyHalf) (i : Nat) (hi : i < 48) :
    (pc2 c d).getLsbD i = dbit (c ++ d) (pc2Table.getD (47 - i) 0) := by
  have hlen : 47 - i < pc2Table.length := Nat.lt_of_le_of_lt (Nat.sub_le 47 i) (by decide)
  rw [pc2, getLsbD_permute (n := 48) pc2Table _ i rfl hi, List.getD_eq_getElem _ _ hlen]

/-- An upper bit of a round key is a bit of C (R85). -/
theorem getLsbD_pc2_upper (c d : KeyHalf) (i : Nat) (hi : i < 24) :
    (pc2 c d).getLsbD (24 + i) = dbit c (pc2Table.getD (23 - i) 0) := by
  have hpos : 47 - (24 + i) = 23 - i := by omega
  rw [getLsbD_pc2 c d _ (by omega), hpos, dbit_append_left c d _ (pc2Table_left _ (by omega))]

/-- A lower bit of a round key is a bit of D (R85). -/
theorem getLsbD_pc2_lower (c d : KeyHalf) (i : Nat) (hi : i < 24) :
    (pc2 c d).getLsbD i = dbit d (pc2Table.getD (24 + (23 - i)) 0 - 28) := by
  have hpos : 47 - i = 24 + (23 - i) := by omega
  rw [getLsbD_pc2 c d _ (by omega), hpos, dbit_append_right c d _ (pc2Table_right _ (by omega))]

/-- The upper 24 bits of a round key come from C alone (R85). -/
theorem pc2_upper (c d d' : KeyHalf) : (pc2 c d).extractLsb' 24 24 = (pc2 c d').extractLsb' 24 24 := by
  apply BitVec.eq_of_getLsbD_eq
  intro i hi
  rw [BitVec.getLsbD_extractLsb', BitVec.getLsbD_extractLsb', getLsbD_pc2_upper c d i hi, getLsbD_pc2_upper c d' i hi]

/-- The lower 24 bits of a round key come from D alone (R85). -/
theorem pc2_lower (c c' d : KeyHalf) : (pc2 c d).extractLsb' 0 24 = (pc2 c' d).extractLsb' 0 24 := by
  apply BitVec.eq_of_getLsbD_eq
  intro i hi
  rw [BitVec.getLsbD_extractLsb', BitVec.getLsbD_extractLsb', Nat.zero_add, getLsbD_pc2_lower c d i hi,
    getLsbD_pc2_lower c' d i hi]

/-- Settles O16: which half an entry of `PC2` selects from. -/
theorem roundKeyHalvesAreIndependent : Obligations.RoundKeyHalvesAreIndependent :=
  ⟨fun _ _ => rfl, fun c d c' d' => ⟨pc2_upper c d d', pc2_lower c c' d⟩⟩

/-- A rotation by 0 is the identity. -/
theorem rotl28_zero (v : KeyHalf) : rotl28 v 0 = v := by
  apply BitVec.eq_of_getLsbD_eq
  intro i hi
  rw [getLsbD_rotl28 v 0 i (by decide) hi]
  congr 1; omega

/-- A rotation by 28 is the identity (R91 item 1). -/
theorem rotl28_width (v : KeyHalf) : rotl28 v 28 = v := by
  apply BitVec.eq_of_getLsbD_eq
  intro i hi
  rw [getLsbD_rotl28 v 28 i le_rfl hi]
  congr 1; omega

/-- Rotation amounts add up. -/
theorem rotl28_rotl28 (v : KeyHalf) (a b : Nat) (h : a + b ≤ 28) : rotl28 (rotl28 v a) b = rotl28 v (a + b) := by
  apply BitVec.eq_of_getLsbD_eq
  intro i hi
  rw [getLsbD_rotl28 _ b i (by omega) hi, getLsbD_rotl28 v a _ (by omega) (Nat.mod_lt _ (by decide)),
    getLsbD_rotl28 v _ i h hi]
  congr 1; omega

/-- Rotation commutes with the complement. -/
theorem rotl28_not (v : KeyHalf) (a : Nat) (h : a ≤ 28) : rotl28 (~~~v) a = ~~~rotl28 v a := by
  apply BitVec.eq_of_getLsbD_eq
  intro i hi
  have hpos : (i + 28 - a) % 28 < 28 := Nat.mod_lt _ (by decide)
  rw [getLsbD_rotl28 _ a i h hi, BitVec.getLsbD_not, BitVec.getLsbD_not, getLsbD_rotl28 v a i h hi, decide_eq_true hpos,
    decide_eq_true hi]

/-- Rotations in turn are one rotation by their sum. -/
theorem foldl_rotl28 (amounts : List Nat) (v : KeyHalf) (h : amounts.sum ≤ 28) :
    amounts.foldl rotl28 v = rotl28 v amounts.sum := by
  induction amounts generalizing v with
  | nil => exact (rotl28_zero v).symm
  | cons a rest ih =>
    rw [List.sum_cons] at h
    rw [List.foldl_cons, ih _ (by omega), rotl28_rotl28 v a _ h, List.sum_cons]

/-- Settles O13: the sixteen amounts add up to 28 (R83). -/
theorem halvesReturnToStart : Obligations.HalvesReturnToStart :=
  fun v => (foldl_rotl28 shiftTable v le_rfl).trans (rotl28_width v)

/-- A key half after the first `i` rounds of a derivation (R87, R88). -/
def halfAfter (v : KeyHalf) (i : Nat) : KeyHalf := (shiftTable.take i).foldl rotl28 v

/-- A round rotates a half by its entry of SHIFT. -/
theorem halfAfter_succ (v : KeyHalf) (i : Nat) (hi : i < 16) :
    halfAfter v (i + 1) = rotl28 (halfAfter v i) (shiftTable.getD i 0) := by
  have hlen : i < shiftTable.length := hi
  rw [halfAfter, List.take_succ_eq_append_getElem hlen, List.foldl_append, List.getD_eq_getElem _ _ hlen]
  rfl

/-- The first entries of SHIFT rotate no further than all sixteen (R83). -/
theorem sum_take_shiftTable_le (i : Nat) : (shiftTable.take i).sum ≤ 28 :=
  (List.take_sublist i shiftTable).sum_le_sum (fun _ _ => Nat.zero_le _)

/-- After `i` rounds a half is rotated by TOTAL[i] (R83). -/
theorem halfAfter_eq_rotl28 (v : KeyHalf) (i : Nat) : halfAfter v i = rotl28 v (shiftTable.take i).sum :=
  foldl_rotl28 _ v (sum_take_shiftTable_le i)

/-- Word j of a derivation is selected from the halves after the rotations of its round (R89). -/
theorem getElem_ksRounds (amounts : List Nat) (c d : KeyHalf) (j : Nat) (hj : j < (ksRounds amounts c d).length) :
    (ksRounds amounts c d)[j] = pc2 ((amounts.take (j + 1)).foldl rotl28 c) ((amounts.take (j + 1)).foldl rotl28 d) := by
  induction amounts generalizing c d j with
  | nil => simp [ksRounds] at hj
  | cons a rest ih =>
    cases j with
    | zero => rfl
    | succ j => exact ih (rotl28 c a) (rotl28 d a) j (Nat.lt_of_succ_lt_succ hj)

/-- Word j of a schedule is selected from the halves after round j + 1 (R90). -/
theorem getElem_ksDerive (k : SubKey) (j : Fin 16) :
    (ksDerive k)[j] = pc2 (halfAfter (initialC k) (j.val + 1)) (halfAfter (initialD k) (j.val + 1)) :=
  getElem_ksRounds shiftTable (initialC k) (initialD k) j.val (by rw [ksRounds_length]; exact j.isLt)

/-- Settles O12: the rotations before a selection add up to TOTAL. -/
theorem scheduleClosedForm : Obligations.ScheduleClosedForm :=
  ⟨rotl28_width, fun k j => by rw [getElem_ksDerive, halfAfter_eq_rotl28, halfAfter_eq_rotl28]⟩

/-- A schedule is made from `CD_0` alone (R90). -/
theorem ksDerive_congr (k k' : SubKey) (h : pc1 k = pc1 k') : ksDerive k = ksDerive k' := by
  have hc : initialC k = initialC k' := by rw [initialC, h, initialC]
  have hd : initialD k = initialD k' := by rw [initialD, h, initialD]
  have words (j : Fin 16) : (ksDerive k)[j] = (ksDerive k')[j] := by rw [getElem_ksDerive, getElem_ksDerive, hc, hd]
  exact Vector.ext fun j hj => words ⟨j, hj⟩

/-- Settles O14: sub-keys that agree but for parity have one `CD_0`. -/
theorem schedulesAreParityBlind : Obligations.SchedulesAreParityBlind :=
  fun k k' h => ksDerive_congr k k' (pc1_congr k k' h)

/-- The halves of a complemented sub-key are the complements of its halves. -/
theorem initial_not (k : SubKey) : initialC (~~~k) = ~~~initialC k ∧ initialD (~~~k) = ~~~initialD k := by
  have hrange : ∀ i ∈ pc1Table, 1 ≤ i ∧ i ≤ 64 := fun i hi => (pc1Table_mem i hi).imp_right And.left
  have hcd : ~~~initialC k ++ ~~~initialD k = pc1 (~~~k) := by
    rw [← BitVec.not_append, initialC_append_initialD]
    exact (permute_not pc1Table k rfl hrange).symm
  obtain ⟨hc, hd⟩ := eq_initial_of_append _ _ _ hcd
  exact ⟨hc.symm, hd.symm⟩

/-- The selection from complemented halves is the complement of the selection. -/
theorem pc2_not (c d : KeyHalf) : pc2 (~~~c) (~~~d) = ~~~pc2 c d := by
  rw [pc2, ← BitVec.not_append, permute_not (n := 48) pc2Table _ rfl pc2Table_mem, pc2]

/-- The rounds of a derivation commute with the complement. -/
theorem halfAfter_not (v : KeyHalf) (i : Nat) : halfAfter (~~~v) i = ~~~halfAfter v i := by
  rw [halfAfter_eq_rotl28, halfAfter_eq_rotl28, rotl28_not v _ (sum_take_shiftTable_le i)]

/-- Settles O15: each of the selections and rotations commutes with the complement. -/
theorem scheduleOfComplement : Obligations.ScheduleOfComplement := by
  intro k j
  obtain ⟨hc, hd⟩ := initial_not k
  rw [getElem_ksDerive, getElem_ksDerive, hc, hd, halfAfter_not, halfAfter_not, pc2_not]

end Sys2Proof.Machine

/-! PROOFS. The key scheduler on the state (spec/40_keyschedule.md sections 4 and 6): a derivation round (R87, R88), CONSTRUCT as
one step (R92), and CONSTRUCT round by round (R90, log 1). -/

namespace Sys2Proof.Machine

/-- A derivation round at a word of the store goes on: it rotates both halves and writes that word. -/
theorem ksRound_of_position (amount : Nat) (s : State) (ks : SchedNo) (j : Fin 16)
    (hp : s.p.toNat = (schedIndex ks).val) (hn : s.n.toNat = j.val) :
    ksRound amount s = .next (writeRk ks j (pc2 (rotl28 s.c amount) (rotl28 s.d amount))
      { s with c := rotl28 s.c amount, d := rotl28 s.d amount }) := by
  have hlt : s.n.toNat < 16 := hn ▸ j.isLt
  have hj : j = ⟨s.n.toNat, hlt⟩ := Fin.ext hn.symm
  exact (ksRound_eq_next amount s _).mpr ⟨ks, hlt, (schedOfPosition_eq_some s.p ks).mpr hp, by rw [hj]⟩

/-- A derivation round's own effect and its frame, for any amount (R87, R88). -/
theorem ksRound_effect (amount : Nat) (s : State) (ks : SchedNo) (j : Fin 16)
    (hp : s.p.toNat = (schedIndex ks).val) (hn : s.n.toNat = j.val) :
    ∃ t, ksRound amount s = .next t ∧
      t.c = rotl28 s.c amount ∧ t.d = rotl28 s.d amount ∧ readRk t ks j = permute 48 pc2Table (t.c ++ t.d) ∧
      (∀ ks' j', ¬ (ks' = ks ∧ j' = j) → readRk t ks' j' = readRk s ks' j') ∧
      t = { s with c := t.c, d := t.d, rk := t.rk } := by
  refine ⟨_, ksRound_of_position amount s ks j hp hn, rfl, rfl, ?_, ?_, rfl⟩
  · rw [readRk_writeRk, if_pos ⟨rfl, rfl⟩]
    rfl
  · intro ks' j' hne
    rw [readRk_writeRk, if_neg fun h => hne ⟨h.1.symm, h.2.symm⟩]
    rfl

/-- Settles O17: the derivation round by 1. -/
theorem ksRoundOneRotatesByOne : Obligations.KsRoundOneRotatesByOne := ksRound_effect 1

/-- Settles O18: the derivation round by 2; the two rotations by 1 add up. -/
theorem ksRoundTwoRotatesByTwo : Obligations.KsRoundTwoRotatesByTwo :=
  ⟨fun v => (rotl28_rotl28 v 1 1 (by decide)).symm, ksRound_effect 2⟩

/-- CONSTRUCT in USABLE (R92, R154). -/
theorem execConstruct_of_usable (payload : List Byte) (s : State) (hlc : s.lc = .usable) :
    execConstruct payload s = .next (raise .alreadyConstructed s) := by
  rcases execConstruct_cases payload s with ⟨_, h⟩ | ⟨h, _⟩ | ⟨h, _⟩
  · exact h
  all_goals simp [hlc] at h

/-- CONSTRUCT in EMPTY with a payload that is no key (R92, R151). -/
theorem execConstruct_of_wrong_length (payload : List Byte) (s : State) (hlc : s.lc = .empty)
    (hlen : payload.length ≠ 24) : execConstruct payload s = .next (raise .invalidKeyLength s) := by
  rcases execConstruct_cases payload s with ⟨h, _⟩ | ⟨_, _, h⟩ | ⟨_, h, _⟩
  · simp [hlc] at h
  · exact h
  · exact absurd h hlen

/-- CONSTRUCT in EMPTY with a key (R92). -/
theorem execConstruct_of_key (payload : List Byte) (s : State) (hlc : s.lc = .empty) (hlen : payload.length = 24) :
    execConstruct payload s = .next (respondOk [] { s with rk := deriveStore payload, lc := .usable }) := by
  rcases execConstruct_cases payload s with ⟨h, _⟩ | ⟨_, h, _⟩ | ⟨_, _, h⟩
  · simp [hlc] at h
  · exact absurd hlen h
  · exact h

/-- A half that SHIFT's rotations carry on round by round is the half after those rounds. -/
theorem eq_halfAfter (C : Nat → KeyHalf) (hC : ∀ i, i < 16 → C (i + 1) = rotl28 (C i) (shiftTable.getD i 0))
    (i : Nat) (hi : i ≤ 16) : C i = halfAfter (C 0) i := by
  induction i with
  | zero => rfl
  | succ i ih => rw [hC i hi, halfAfter_succ _ i hi, ih (Nat.le_of_succ_le hi)]

/-- Settles O21: the three cases of CONSTRUCT; the halves given by the rounds are those that the schedules are made from. -/
theorem constructDerivesThreeSchedules : Obligations.ConstructDerivesThreeSchedules := by
  refine fun s payload => ⟨execConstruct_of_usable payload s, execConstruct_of_wrong_length payload s, ?_⟩
  intro hlc hlen C D hstart hround
  refine ⟨_, execConstruct_of_key payload s hlc hlen, ?_, rfl⟩
  intro ks j
  obtain ⟨hC, hD⟩ := eq_initial_of_append (C ks 0) (D ks 0) (subKey payload ks) (hstart ks)
  rw [readRk_deriveStore _ payload ks j rfl, getElem_ksDerive, ← hC, ← hD,
    ← eq_halfAfter (C ks) (fun i hi => (hround ks i hi).1) _ j.isLt,
    ← eq_halfAfter (D ks) (fun i hi => (hround ks i hi).2) _ j.isLt, pc2]

/-- The shift word's bit for a round decodes to the derivation round that rotates by the round's entry of SHIFT (R70, R83). -/
theorem exec_decodeKeyStep (n : Nat) (hn : n < 16) (s : State) :
    exec (decodeKeyStep (shiftWord.extractLsb' (15 - n) 1)) s = ksRound (shiftTable.getD n 0) s := by
  interval_cases n <;> rfl

/-- The words of the store below a linear address are those of the key's schedules. -/
def WordsDerived (key : List Byte) (a : Nat) (s : State) : Prop :=
  ∀ ks j, rkAddress ks j < a → readRk s ks j = (ksDerive (subKey key ks))[j]

/-- A CONSTRUCT that began in `s₀` is in execution; the channels are as they were. -/
structure InConstruct (s₀ : State) (key : List Byte) (s : State) : Prop where
  busy : s.busy = some .construct
  inBuf : s.inBuf = key
  resp : s.resp = none
  inbox : s.inbox = s₀.inbox
  sent : s.sent = s₀.sent

/-- The halves of schedule `ks` after `i` of its rounds. -/
structure HalvesAfter (key : List Byte) (ks : SchedNo) (i : Nat) (s : State) : Prop where
  c : s.c = halfAfter (initialC (subKey key ks)) i
  d : s.d = halfAfter (initialD (subKey key ks)) i

/-- The sequencer stands at word j of schedule `ks` (R26). -/
structure PositionAt (ks : SchedNo) (j : Fin 16) (s : State) : Prop where
  p : s.p.toNat = (schedIndex ks).val
  n : s.n.toNat = j.val

/-- The invariant of CONSTRUCT round by round: the round that writes word j of schedule `ks` is next. -/
structure DerivationAt (s₀ : State) (key : List Byte) (ks : SchedNo) (j : Fin 16) (s : State) : Prop where
  inConstruct : InConstruct s₀ key s
  position : PositionAt ks j s
  halves : HalvesAfter key ks j.val s
  words : WordsDerived key (rkAddress ks j) s

/-- The same, when that round has been executed and the sequencer has not yet advanced. -/
structure RoundDone (s₀ : State) (key : List Byte) (ks : SchedNo) (j : Fin 16) (s : State) : Prop where
  inConstruct : InConstruct s₀ key s
  position : PositionAt ks j s
  halves : HalvesAfter key ks (j.val + 1) s
  words : WordsDerived key (rkAddress ks j + 1) s

/-- The state in which a CONSTRUCT starts meets the invariant at the first word. -/
theorem derivationAt_accept (s : State) (key : List Byte) (h : s.resp = none) :
    DerivationAt s key .k1 0 (accept .construct key s) where
  inConstruct := ⟨rfl, rfl, h, rfl, rfl⟩
  position := ⟨rfl, rfl⟩
  halves := ⟨rfl, rfl⟩
  words := fun _ _ hlt => absurd hlt (Nat.not_lt_zero _)

/-- A position of the store holds one schedule only. -/
theorem schedIndex_inj (ks ks' : SchedNo) (h : schedIndex ks = schedIndex ks') : ks = ks' := by
  revert h
  cases ks <;> cases ks' <;> decide

/-- An address is that of one word only (R43). -/
theorem rkAddress_inj (ks ks' : SchedNo) (j j' : Fin 16) (h : rkAddress ks j = rkAddress ks' j') : ks = ks' ∧ j = j' := by
  unfold rkAddress at h
  exact ⟨schedIndex_inj ks ks' (by omega), by omega⟩

/-- Writing the word at an address extends the derived words by it. -/
theorem wordsDerived_writeRk (key : List Byte) (ks : SchedNo) (j : Fin 16) (s : State)
    (h : WordsDerived key (rkAddress ks j) s) :
    WordsDerived key (rkAddress ks j + 1) (writeRk ks j (ksDerive (subKey key ks))[j] s) := by
  intro ks' j' hlt
  rw [readRk_writeRk]
  split
  · rename_i e
    obtain ⟨rfl, rfl⟩ := e
    rfl
  · rename_i hne
    have haddr : rkAddress ks' j' ≠ rkAddress ks j := fun e => hne (rkAddress_inj ks ks' j j' e.symm)
    exact h ks' j' (by omega)

/-- The round that is next writes its word of the schedule (R87 to R90). -/
theorem ksRound_of_derivationAt (s₀ : State) (key : List Byte) (ks : SchedNo) (j : Fin 16) (s : State)
    (h : DerivationAt s₀ key ks j s) :
    ∃ u, ksRound (shiftTable.getD j.val 0) s = .next u ∧ RoundDone s₀ key ks j u := by
  obtain ⟨hin, hpos, hhalves, hwords⟩ := h
  have hc : rotl28 s.c (shiftTable.getD j.val 0) = halfAfter (initialC (subKey key ks)) (j.val + 1) := by
    rw [hhalves.c, halfAfter_succ _ _ j.isLt]
  have hd : rotl28 s.d (shiftTable.getD j.val 0) = halfAfter (initialD (subKey key ks)) (j.val + 1) := by
    rw [hhalves.d, halfAfter_succ _ _ j.isLt]
  refine ⟨_, ksRound_of_position _ s ks j hpos.p hpos.n, ⟨hin.busy, hin.inBuf, hin.resp, hin.inbox, hin.sent⟩,
    ⟨hpos.p, hpos.n⟩, ⟨hc, hd⟩, ?_⟩
  rw [hc, hd, ← getElem_ksDerive]
  exact wordsDerived_writeRk key ks j _ hwords

/-- The micro-operation at a position of the invariant is the round of R83's amount (R70, R132). -/
theorem stepMicro_of_position (s : State) (ks : SchedNo) (j : Fin 16) (h : PositionAt ks j s) :
    stepMicro .construct s =
      mapNext (fun t => deliver (advanceDerivation t)) (ksRound (shiftTable.getD j.val 0) s) := by
  obtain ⟨hp, hn⟩ := h
  have hp3 : s.p.toNat < 3 := hp ▸ (schedIndex ks).isLt
  have hn16 : s.n.toNat < 16 := hn ▸ j.isLt
  rw [stepMicro_of_decode .construct s _ _ (if_pos ⟨hp3, hn16⟩) rfl, exec_decodeKeyStep _ hn16, hn]
  rfl

/-- Within a schedule the sequencer advances to its next word (R90). -/
theorem advanceDerivation_of_lt (s₀ : State) (key : List Byte) (ks : SchedNo) (j : Fin 16) (hj : j.val + 1 < 16) (u : State)
    (h : RoundDone s₀ key ks j u) : DerivationAt s₀ key ks ⟨j.val + 1, hj⟩ (advanceDerivation u) := by
  obtain ⟨hin, ⟨hp, hn⟩, hhalves, hwords⟩ := h
  have hne : u.n ≠ 15 := by bv_omega
  have hn' : (u.n + 1).toNat = j.val + 1 := by bv_omega
  rw [advanceDerivation, if_neg hne]
  exact ⟨⟨hin.busy, hin.inBuf, hin.resp, hin.inbox, hin.sent⟩, ⟨hp, hn'⟩, ⟨hhalves.c, hhalves.d⟩, hwords⟩

/-- After the last word of a schedule, the next sub-key loaded, the first word of the next schedule is next (R92). -/
theorem derivationAt_loadSubKey (s₀ : State) (key : List Byte) (ks ks' : SchedNo) (p : BitVec 2) (u : State)
    (hnext : rkAddress ks' 0 = rkAddress ks 15 + 1) (hp : p.toNat = (schedIndex ks').val) (h : RoundDone s₀ key ks 15 u) :
    DerivationAt s₀ key ks' 0 (loadSubKey ks' { u with p := p, n := 0 }) := by
  obtain ⟨hin, _, _, hwords⟩ := h
  have hc : initialC (subKey u.inBuf ks') = initialC (subKey key ks') := by rw [hin.inBuf]
  have hd : initialD (subKey u.inBuf ks') = initialD (subKey key ks') := by rw [hin.inBuf]
  exact ⟨⟨hin.busy, hin.inBuf, hin.resp, hin.inbox, hin.sent⟩, ⟨hp, rfl⟩, ⟨hc, hd⟩, hnext ▸ hwords⟩

/-- The state in which a CONSTRUCT with this key ends (R92). -/
def constructed (key : List Byte) (s : State) : State := respondOk [] { s with rk := deriveStore key, lc := .usable }

/-- Stores that agree in every word are the same. -/
theorem rk_eq_of_readRk (s t : State) (h : ∀ ks j, readRk s ks j = readRk t ks j) : s.rk = t.rk := by
  refine Vector.ext fun i hi => Vector.ext fun j hj => ?_
  obtain ⟨ks, hks⟩ := exists_schedIndex_eq ⟨i, hi⟩
  have hword := h ks ⟨j, hj⟩
  simpa only [readRk, schedule, hks, Fin.getElem_fin] using hword

/-- After the last word of schedule 3 the command ends as the atomic one does (R92). -/
theorem finishConstruct_of_roundDone (s₀ : State) (key : List Byte) (u : State) (h : RoundDone s₀ key .k3 15 u) :
    finishConstruct u = constructed key s₀ := by
  obtain ⟨hin, _, _, hwords⟩ := h
  have hrk : u.rk = deriveStore key := by
    refine rk_eq_of_readRk u { u with rk := deriveStore key } fun ks j => ?_
    rw [hwords ks j (rkAddress_lt ks j), readRk_deriveStore _ key ks j rfl]
  rw [finishConstruct, constructed, respondOk_eq_ended, respondOk_eq_ended, State.ended, State.ended, hrk, hin.inbox,
    hin.sent]

/-- What the sequencer does after a round: it stands at the word at the next linear address, or the command is done. -/
theorem advanceDerivation_cases (s₀ : State) (key : List Byte) (ks : SchedNo) (j : Fin 16) (u : State)
    (h : RoundDone s₀ key ks j u) :
    (∃ ks' j', rkAddress ks' j' = rkAddress ks j + 1 ∧ DerivationAt s₀ key ks' j' (advanceDerivation u)) ∨
    (rkAddress ks j = 47 ∧ advanceDerivation u = constructed key s₀) := by
  by_cases hj : j.val + 1 < 16
  · exact .inl ⟨ks, ⟨j.val + 1, hj⟩, rfl, advanceDerivation_of_lt s₀ key ks j hj u h⟩
  · obtain rfl : j = 15 := by omega
    have hn : u.n = 15 := BitVec.eq_of_toNat_eq h.position.n
    rw [advanceDerivation, if_pos hn]
    cases ks with
    | k1 =>
      have hp : u.p = 0 := BitVec.eq_of_toNat_eq h.position.p
      rw [if_pos hp]
      exact .inl ⟨.k2, 0, rfl, derivationAt_loadSubKey s₀ key .k1 .k2 1 u rfl rfl h⟩
    | k2 =>
      have hp : u.p = 1 := BitVec.eq_of_toNat_eq h.position.p
      rw [if_neg (by simp [hp]), if_pos hp]
      exact .inl ⟨.k3, 0, rfl, derivationAt_loadSubKey s₀ key .k2 .k3 2 u rfl rfl h⟩
    | k3 =>
      have hp : u.p = 2 := BitVec.eq_of_toNat_eq h.position.p
      rw [if_neg (by simp [hp]), if_neg (by simp [hp])]
      exact .inr ⟨rfl, finishConstruct_of_roundDone s₀ key u h⟩

/-- A step of a CONSTRUCT in execution: one word further, or the end of the command with its response taken. -/
theorem step_of_derivationAt (s₀ : State) (key : List Byte) (ks : SchedNo) (j : Fin 16) (s : State)
    (hr : s₀.inbox.head? ≠ some .reset) (h : DerivationAt s₀ key ks j s) :
    ∃ t, step s = .next t ∧
      ((∃ ks' j', rkAddress ks' j' = rkAddress ks j + 1 ∧ DerivationAt s₀ key ks' j' t) ∨
       (rkAddress ks j = 47 ∧ t = deliver (constructed key s₀))) := by
  obtain ⟨u, hround, hdone⟩ := ksRound_of_derivationAt s₀ key ks j s h
  have hstep : step s = .next (deliver (advanceDerivation u)) := by
    rw [step_of_busy s .construct h.inConstruct.busy (h.inConstruct.inbox ▸ hr), stepMicro_of_position s ks j h.position,
      hround, mapNext_next]
  refine ⟨_, hstep, ?_⟩
  rcases advanceDerivation_cases s₀ key ks j u hdone with ⟨ks', j', haddr, hnext⟩ | ⟨haddr, hlast⟩
  · rw [deliver_of_idle _ hnext.inConstruct.resp]
    exact .inl ⟨ks', j', haddr, hnext⟩
  · exact .inr ⟨haddr, congrArg deliver hlast⟩

/-- From any word on, as many steps as there are words left complete the command; by induction on that number. -/
theorem run_of_derivationAt (s₀ : State) (key : List Byte) (hr : s₀.inbox.head? ≠ some .reset) (k : Nat) :
    ∀ (ks : SchedNo) (j : Fin 16) (s : State), rkAddress ks j + k = 48 → DerivationAt s₀ key ks j s →
      (Sys2Proof.core.run k s : Outcome) = .next (deliver (constructed key s₀)) := by
  induction k with
  | zero => intro ks j s hk _; exact absurd hk (rkAddress_lt ks j).ne
  | succ k ih =>
    intro ks j s hk h
    obtain ⟨t, hstep, ⟨ks', j', haddr, hnext⟩ | ⟨haddr, rfl⟩⟩ := step_of_derivationAt s₀ key ks j s hr h
    · rw [run_succ_of_next k s t hstep]
      exact ih ks' j' t (by omega) hnext
    · obtain rfl : k = 0 := by omega
      rw [run_succ_of_next 0 s _ hstep, run_zero]

/-- Settles O54: the first of the forty-eight words is next in the state in which the command starts. -/
theorem fortyEightRoundsCompleteConstruct : Obligations.FortyEightRoundsCompleteConstruct := by
  intro s payload hlc hlen hresp hr
  have hexec : exec (.construct payload) s = .next (constructed payload s) := execConstruct_of_key payload s hlc hlen
  rw [hexec, mapNext_next]
  exact run_of_derivationAt s payload hr 48 .k1 0 _ rfl (derivationAt_accept s payload hresp)

end Sys2Proof.Machine

/-! PROOFS. The block transform as a function (spec/41_blocktransform.md sections 1 and 2): the two block permutations undo each
other (R103), the S-boxes on their groups (R114), the round function F (R116), and the complement through each of them. -/

namespace Sys2Proof.Machine

/-- A value is made of its DES bits 1 to W (R11). -/
theorem eq_of_dbit_eq {w : Nat} (v v' : BitVec w) (h : ∀ i, 1 ≤ i → i ≤ w → dbit v i = dbit v' i) : v = v' := by
  apply BitVec.eq_of_getLsbD_eq
  intro i hi
  have hbit := h (w - i) (by omega) (Nat.sub_le w i)
  rwa [dbit, dbit, Nat.sub_sub_self hi.le] at hbit

/-- A permutation undoes another when its entry k names the position at which the other's table holds k. -/
theorem permute_permute_of_inverse {w : Nat} (table table' : List Nat) (v : BitVec w) (hlen : table.length = w)
    (hlen' : table'.length = w) (hrange : ∀ i ∈ table, 1 ≤ i ∧ i ≤ w)
    (hinv : ∀ k, 1 ≤ k → k ≤ w → table'.getD (table.getD (k - 1) 0 - 1) 0 = k) :
    permute w table (permute w table' v) = v := by
  apply eq_of_dbit_eq
  intro k h1 hw
  have hlt : k - 1 < table.length := by omega
  have hmem : table.getD (k - 1) 0 ∈ table := by
    rw [List.getD_eq_getElem _ _ hlt]
    exact List.getElem_mem hlt
  obtain ⟨hpos, hle⟩ := hrange _ hmem
  rw [dbit_permute table _ k hlen h1 hw, dbit_permute table' v _ hlen' hpos hle, hinv k h1 hw]

/-- `IP` names bits of a block (R100). -/
theorem ipTable_mem : ∀ i ∈ ipTable, 1 ≤ i ∧ i ≤ 64 := by decide

/-- `FP` names bits of a block (R102). -/
theorem fpTable_mem : ∀ i ∈ fpTable, 1 ≤ i ∧ i ≤ 64 := by decide

/-- `E` names bits of a half (R104). -/
theorem eTable_mem : ∀ i ∈ eTable, 1 ≤ i ∧ i ≤ 32 := by decide

/-- `IP[FP[k]] = k` (R103). -/
theorem ipTable_fpTable (k : Nat) (h1 : 1 ≤ k) (h64 : k ≤ 64) : ipTable.getD (fpTable.getD (k - 1) 0 - 1) 0 = k := by
  have entries : ∀ k, k ≤ 64 → 1 ≤ k → ipTable.getD (fpTable.getD (k - 1) 0 - 1) 0 = k := by decide
  exact entries k h64 h1

/-- `FP[IP[k]] = k` (R103). -/
theorem fpTable_ipTable (k : Nat) (h1 : 1 ≤ k) (h64 : k ≤ 64) : fpTable.getD (ipTable.getD (k - 1) 0 - 1) 0 = k := by
  have entries : ∀ k, k ≤ 64 → 1 ≤ k → fpTable.getD (ipTable.getD (k - 1) 0 - 1) 0 = k := by decide
  exact entries k h64 h1

/-- FP undoes IP (R103). -/
@[simp] theorem fp_ip (x : Block) : fp (ip x) = x :=
  permute_permute_of_inverse fpTable ipTable x rfl rfl fpTable_mem ipTable_fpTable

/-- IP undoes FP (R103). -/
@[simp] theorem ip_fp (x : Block) : ip (fp x) = x :=
  permute_permute_of_inverse ipTable fpTable x rfl rfl ipTable_mem fpTable_ipTable

/-- Settles O22: the tables are inverse to each other, and so are the permutations they name. -/
theorem finalPermutationInvertsInitial : Obligations.FinalPermutationInvertsInitial :=
  ⟨fun x => ⟨fp_ip x, ip_fp x⟩, fun k h1 h64 => ⟨ipTable_fpTable k h1 h64, fpTable_ipTable k h1 h64⟩⟩

/-- The 4-bit values `f 0` to `f n` concatenated, `f 0` in the top four bits. -/
def appendGroups (f : Nat → BitVec 4) : (n : Nat) → BitVec (4 * (n + 1))
  | 0 => f 0
  | n + 1 => appendGroups f n ++ f (n + 1)

/-- The groups of a concatenation are the values concatenated. -/
theorem extractLsb'_appendGroups (f : Nat → BitVec 4) (n k : Nat) (hk : k ≤ n) :
    (appendGroups f n).extractLsb' (4 * (n - k)) 4 = f k := by
  induction n with
  | zero =>
    obtain rfl := Nat.le_zero.mp hk
    exact BitVec.extractLsb'_eq_self
  | succ n ih =>
    obtain rfl | hlt := Nat.eq_or_lt_of_le hk
    · rw [Nat.sub_self]
      exact BitVec.extractLsb'_append_eq_right
    · have hpos : 4 * (n + 1 - k) - 4 = 4 * (n - k) := by omega
      refine (BitVec.extractLsb'_append_eq_of_le (by omega)).trans ?_
      rw [hpos]
      exact ih (Nat.le_of_lt_succ hlt)

/-- The S-boxes in the order of their groups (R106 to R113). -/
def sboxes : List (List (List Nat)) := [sbox1, sbox2, sbox3, sbox4, sbox5, sbox6, sbox7, sbox8]

/-- The output of the S-box of group i + 1 (R114). -/
def sboxOutput (x : BitVec 48) (i : Nat) : BitVec 4 := sboxLookup (sboxes.getD i []) (sextet x (i + 1))

/-- The substitution concatenates the outputs of the eight S-boxes (R114). -/
theorem substitute_eq_appendGroups (x : BitVec 48) : substitute x = appendGroups (sboxOutput x) 7 := rfl

/-- Group k of the substitution, from the top, is S-box k on group k of its input (R114). -/
theorem extractLsb'_substitute (x : BitVec 48) (k : Nat) (h1 : 1 ≤ k) (h8 : k ≤ 8) :
    (substitute x).extractLsb' (32 - 4 * k) 4 = sboxLookup (sboxes.getD (k - 1) []) (sextet x k) := by
  have hpos : 32 - 4 * k = 4 * (7 - (k - 1)) := by omega
  rw [substitute_eq_appendGroups, hpos, extractLsb'_appendGroups _ 7 (k - 1) (by omega), sboxOutput,
    Nat.sub_add_cancel h1]

/-- Settles O23: the lookup of each group, with its row and column written out. -/
theorem substitutionAddressesSboxes : Obligations.SubstitutionAddressesSboxes := by
  rintro x k h1 h8 _ rfl
  exact extractLsb'_substitute x k h1 h8

/-- Complements cancel in an exclusive or. -/
theorem not_xor_not {w : Nat} (a b : BitVec w) : ~~~a ^^^ ~~~b = a ^^^ b := by
  rw [← BitVec.not_xor_left, ← BitVec.not_xor_right, BitVec.not_not]

/-- The expansion commutes with the complement. -/
theorem expand_not (r : DataHalf) : expand (~~~r) = ~~~expand r := permute_not (n := 48) eTable r rfl eTable_mem

/-- F does not see a complement of both its operands (R116). -/
theorem roundF_not (r : DataHalf) (k : RoundKey) : roundF (~~~r) (~~~k) = roundF r k := by
  rw [roundF, expand_not, not_xor_not, roundF]

/-- The S-boxes on eight zero groups: the first entry of each (R106 to R113). -/
theorem substitute_zero : substitute 0 = 0xEFA72C4D := by decide

/-- F at zero operands: only the substitution and the permutation P count (R116). -/
theorem roundF_zero : roundF 0 0 = 0xD8D8DBBC := by
  have hexpand : expand 0 ^^^ 0 = 0 := by decide
  rw [roundF, hexpand, substitute_zero]
  decide

/-- Settles O24: F's definition, its symmetry under the complement, and its value at zero operands. -/
theorem roundFunctionComposition : Obligations.RoundFunctionComposition :=
  ⟨fun _ _ => rfl, roundF_not, roundF_zero⟩

end Sys2Proof.Machine

/-! PROOFS. The passes (spec/41_blocktransform.md section 3): what DES.ENC and DES.DEC leave (R117 to R119), and the laws of a pass
(R120, R121). -/

namespace Sys2Proof.Machine

/-- `L_0` and `R_0` make up IP of the block (R101). -/
theorem initialHalves_append (b : Block) : (initialHalves b).1 ++ (initialHalves b).2 = ip b := by
  rw [initialHalves, BitVec.extractLsb'_append_extractLsb'_eq_extractLsb' (Nat.zero_add 32).symm]
  exact BitVec.extractLsb'_eq_self

/-- No other two halves make up IP of the block. -/
theorem initialHalves_of_append (l r : DataHalf) (b : Block) (h : l ++ r = ip b) : initialHalves b = (l, r) := by
  rw [initialHalves, ← h, BitVec.extractLsb'_append_eq_left, BitVec.extractLsb'_append_eq_right]

/-- Halves that change by one Feistel round for each key in turn are those that the rounds run through (R117). -/
theorem foldl_feistel_eq (keys : List RoundKey) (h : Nat → Halves)
    (hrun : ∀ (j : Nat) (hj : j < keys.length), h (j + 1) = feistel (h j) keys[j]) :
    keys.foldl feistel (h 0) = h keys.length := by
  induction keys generalizing h with
  | nil => rfl
  | cons k rest ih =>
    have hfirst : feistel (h 0) k = h 1 := (hrun 0 (Nat.succ_pos _)).symm
    rw [List.foldl_cons, hfirst]
    exact ih (fun i => h (i + 1)) fun j hj => hrun (j + 1) (Nat.succ_lt_succ hj)

/-- A pass from the halves of IP of its block, by the recurrence of R117, with its frame (log 6). -/
theorem runPass_eq (keys : List RoundKey) (s : State) (L R : Nat → DataHalf) (hlen : keys.length = 16)
    (hstart : L 0 ++ R 0 = ip s.blk)
    (hrun : ∀ (j : Nat) (hj : j < keys.length), L (j + 1) = R j ∧ R (j + 1) = L j ^^^ roundF (R j) keys[j]) :
    runPass keys s = { s with l := L 16, r := R 16, n := 16, blk := fp (R 16 ++ L 16) } := by
  have hrounds : rounds keys s.blk = (L 16, R 16) := by
    rw [rounds, initialHalves_of_append _ _ _ hstart, ← hlen]
    exact foldl_feistel_eq keys (fun i => (L i, R i)) fun j hj => Prod.ext_iff.mpr (hrun j hj)
  rw [runPass, hrounds, finishPass]

/-- An encryption pass has sixteen round keys (R118). -/
@[simp] theorem length_encKeys (sched : Schedule) : (encKeys sched).length = 16 := Vector.length_toList

/-- A decryption pass has sixteen round keys (R119). -/
@[simp] theorem length_decKeys (sched : Schedule) : (decKeys sched).length = 16 := by
  rw [decKeys, List.length_reverse, Vector.length_toList]

/-- An encryption pass reads word j in its round j + 1 (R118). -/
theorem getElem_encKeys (sched : Schedule) (j : Nat) (hj : j < 16) :
    (encKeys sched)[j]'((length_encKeys sched).symm ▸ hj) = sched[j] := Vector.getElem_toList _

/-- A decryption pass reads word 15 - j in its round j + 1 (R119). -/
theorem getElem_decKeys (sched : Schedule) (j : Nat) (hj : j < 16) :
    (decKeys sched)[j]'((length_decKeys sched).symm ▸ hj) = sched[15 - j] := by
  simp [decKeys]

/-- Settles O25: a pass on the words in their order. -/
theorem encryptPassReadsKeysForward : Obligations.EncryptPassReadsKeysForward := by
  intro s ks L R hstart hrun
  refine congrArg Host.Outcome.next (runPass_eq _ s L R (length_encKeys _) hstart fun j hj => ?_)
  have hj16 : j < 16 := length_encKeys _ ▸ hj
  rw [getElem_encKeys _ j hj16]
  exact hrun ⟨j, hj16⟩

/-- Settles O26: a pass on the words in reverse order. -/
theorem decryptPassReadsKeysBackward : Obligations.DecryptPassReadsKeysBackward := by
  intro s ks L R hstart hrun
  refine congrArg Host.Outcome.next (runPass_eq _ s L R (length_decKeys _) hstart fun j hj => ?_)
  have hj16 : j < 16 := length_decKeys _ ▸ hj
  rw [getElem_decKeys _ j hj16]
  exact hrun ⟨j, hj16⟩

/-- A round on the swapped halves undoes the round with the same key (R120 item 1). -/
theorem feistel_swap_feistel (h : Halves) (k : RoundKey) : feistel (feistel h k).swap k = h.swap := by
  simp [feistel, Prod.swap]

/-- The rounds with the keys in reverse, on the swapped halves, undo the rounds. -/
theorem foldl_feistel_reverse (keys : List RoundKey) (h : Halves) :
    keys.reverse.foldl feistel (keys.foldl feistel h).swap = h.swap := by
  induction keys generalizing h with
  | nil => rfl
  | cons k rest ih =>
    rw [List.foldl_cons, List.reverse_cons, List.foldl_append, ih, List.foldl_cons, List.foldl_nil, feistel_swap_feistel]

/-- A pass begins with the halves that the pass before it ended with, swapped. -/
theorem initialHalves_finishPass (h : Halves) : initialHalves (finishPass h) = h.swap :=
  initialHalves_of_append h.2 h.1 _ (ip_fp _).symm

/-- The end of a pass on the swapped initial halves gives back the block. -/
theorem finishPass_swap_initialHalves (b : Block) : finishPass (initialHalves b).swap = b := by
  rw [finishPass, Prod.fst_swap, Prod.snd_swap, initialHalves_append, fp_ip]

/-- A pass with the keys in reverse undoes a pass (R120 item 1). -/
theorem pass_reverse_pass (keys : List RoundKey) (b : Block) :
    finishPass (rounds keys.reverse (finishPass (rounds keys b))) = b := by
  rw [rounds, initialHalves_finishPass, rounds, foldl_feistel_reverse, finishPass_swap_initialHalves]

/-- Decryption undoes encryption (R120 item 1). -/
@[simp] theorem desDecrypt_desEncrypt (sched : Schedule) (x : Block) : desDecrypt sched (desEncrypt sched x) = x :=
  pass_reverse_pass (encKeys sched) x

/-- Encryption undoes decryption (R120 item 1). -/
@[simp] theorem desEncrypt_desDecrypt (sched : Schedule) (x : Block) : desEncrypt sched (desDecrypt sched x) = x := by
  have hkeys : encKeys sched = (decKeys sched).reverse := (List.reverse_reverse _).symm
  rw [desEncrypt, hkeys]
  exact pass_reverse_pass (decKeys sched) x

/-- Settles O27: the keys of the two directions are each other's reverse. -/
theorem decryptInvertsEncrypt : Obligations.DecryptInvertsEncrypt :=
  fun sched x => ⟨desDecrypt_desEncrypt sched x, desEncrypt_desDecrypt sched x⟩

/-- Settles O28: both instructions go on, and the first leaves the schedule that the second reads. -/
theorem passesRestoreTheBlock : Obligations.PassesRestoreTheBlock := fun s ks =>
  ⟨⟨_, _, rfl, rfl, desDecrypt_desEncrypt (schedule s.rk ks) s.blk, rfl⟩,
    ⟨_, _, rfl, rfl, desEncrypt_desDecrypt (schedule s.rk ks) s.blk, rfl⟩⟩

/-- A palindromic schedule is read alike in both directions. -/
theorem decKeys_of_palindrome (sched : Schedule) (h : ∀ j : Fin 16, sched[j] = sched[15 - j.val]) :
    decKeys sched = encKeys sched := by
  apply List.ext_getElem (by rw [length_decKeys, length_encKeys])
  intro j hdec _
  have hj : j < 16 := length_decKeys sched ▸ hdec
  rw [getElem_decKeys sched j hj, getElem_encKeys sched j hj]
  exact (h ⟨j, hj⟩).symm

/-- Settles O29: the two directions read the same keys, and one undoes the other. -/
theorem palindromicScheduleIsInvolution : Obligations.PalindromicScheduleIsInvolution := by
  intro sched h x
  have hdec (y : Block) : desDecrypt sched y = desEncrypt sched y := by
    rw [desDecrypt, decKeys_of_palindrome sched h, desEncrypt]
  exact ⟨hdec x, by rw [← hdec, desDecrypt_desEncrypt]⟩

/-- Both halves complemented. -/
def complementHalves (h : Halves) : Halves := (~~~h.1, ~~~h.2)

/-- A round commutes with the complement of halves and key (R121). -/
theorem feistel_not (h : Halves) (k : RoundKey) : feistel (complementHalves h) (~~~k) = complementHalves (feistel h k) := by
  simp only [feistel, complementHalves, roundF_not, BitVec.not_xor_left]

/-- IP commutes with the complement. -/
theorem ip_not (b : Block) : ip (~~~b) = ~~~ip b := permute_not (n := 64) ipTable b rfl ipTable_mem

/-- FP commutes with the complement. -/
theorem fp_not (b : Block) : fp (~~~b) = ~~~fp b := permute_not (n := 64) fpTable b rfl fpTable_mem

/-- The initial halves of a complemented block. -/
theorem initialHalves_not (b : Block) : initialHalves (~~~b) = complementHalves (initialHalves b) := by
  apply initialHalves_of_append
  rw [← BitVec.not_append, initialHalves_append, ip_not]

/-- The end of a pass on complemented halves. -/
theorem finishPass_complementHalves (h : Halves) : finishPass (complementHalves h) = ~~~finishPass h := by
  rw [finishPass, complementHalves, ← BitVec.not_append, fp_not, finishPass]

/-- The rounds commute with the complement of keys and block. -/
theorem rounds_not (keys : List RoundKey) (b : Block) :
    rounds (keys.map (~~~·)) (~~~b) = complementHalves (rounds keys b) := by
  rw [rounds, initialHalves_not, List.foldl_map]
  exact List.foldl_hom complementHalves feistel_not

/-- The round keys of a complemented sub-key are the complements of its round keys (R91 item 5). -/
theorem encKeys_ksDerive_not (k : SubKey) : encKeys (ksDerive (~~~k)) = (encKeys (ksDerive k)).map (~~~·) := by
  apply List.ext_getElem (by rw [List.length_map, length_encKeys, length_encKeys])
  intro j hj _
  have hj16 : j < 16 := length_encKeys _ ▸ hj
  rw [List.getElem_map, getElem_encKeys _ j hj16, getElem_encKeys _ j hj16]
  exact scheduleOfComplement k ⟨j, hj16⟩

/-- Settles O30: every round key is complemented, and so is what each round makes of the halves. -/
theorem encryptionOfComplement : Obligations.EncryptionOfComplement := by
  intro k x
  rw [desEncrypt, encKeys_ksDerive_not, rounds_not, finishPass_complementHalves, desEncrypt]

end Sys2Proof.Machine

/-! PROOFS. The EDE controller (spec/42_ede_controller.md): the pass table (R131), COMPUTE and INVERT (R133 to R135, R137 to
R139), DESTROY (R136). -/

namespace Sys2Proof.Machine

/-- Settles O4: a closed fact about each descriptor of the two rows. -/
theorem passTableRows : Obligations.PassTableRows := by
  refine ⟨rfl, rfl, rfl, rfl, fun p hp => ?_⟩
  interval_cases p <;> rfl

/-- The block of an 8-byte payload is its bytes as a big-endian number (R12, R42). -/
theorem inputBlock_eq_be (payload : List Byte) (hlen : payload.length = 8) :
    inputBlock payload = BitVec.ofNat 64 (be payload) := by
  rw [inputBlock, memRead8, List.drop_zero, List.take_of_length_le hlen.le]

/-- A block has the bytes of an 8-byte payload exactly when it is the payload's block. -/
theorem bytesOfBlock_eq_iff (v : Block) (payload : List Byte) (hlen : payload.length = 8) :
    bytesOfBlock v = payload ↔ v = inputBlock payload := by
  constructor
  · rintro rfl
    exact (inputBlock_bytesOfBlock v).symm
  · rintro rfl
    exact bytesOfBlock_inputBlock payload hlen

/-- INVERT's transform undoes COMPUTE's, under any store (R137). -/
@[simp] theorem invertBlock_computeBlock (rk : Store) (b : Block) : invertBlock rk (computeBlock rk b) = b := by
  simp [invertBlock, computeBlock]

/-- COMPUTE's transform undoes INVERT's, under any store (R137). -/
@[simp] theorem computeBlock_invertBlock (rk : Store) (b : Block) : computeBlock rk (invertBlock rk b) = b := by
  simp [invertBlock, computeBlock]

/-- The one preimage of a block under COMPUTE's transform is INVERT's (R135). -/
theorem computeBlock_eq_iff (rk : Store) (x b : Block) : computeBlock rk x = b ↔ x = invertBlock rk b := by
  constructor
  · rintro rfl
    exact (invertBlock_computeBlock rk x).symm
  · rintro rfl
    exact computeBlock_invertBlock rk b

/-- A data command in EMPTY (R133, R153). -/
theorem dataCommand_of_empty (g : Store → Block → Block) (payload : List Byte) (s : State) (hlc : s.lc = .empty) :
    dataCommand g payload s = .next (raise .notUsable s) := by
  rcases dataCommand_cases g payload s with ⟨_, h⟩ | ⟨h, _⟩ | ⟨h, _⟩
  · exact h
  all_goals simp [hlc] at h

/-- A data command in USABLE with a payload that is no block (R133, R152). -/
theorem dataCommand_of_wrong_length (g : Store → Block → Block) (payload : List Byte) (s : State) (hlc : s.lc = .usable)
    (hlen : payload.length ≠ 8) : dataCommand g payload s = .next (raise .invalidInputLength s) := by
  rcases dataCommand_cases g payload s with ⟨h, _⟩ | ⟨_, _, h⟩ | ⟨_, h, _⟩
  · simp [hlc] at h
  · exact h
  · exact absurd h hlen

/-- A data command in USABLE with a block (R133). -/
theorem dataCommand_of_block (g : Store → Block → Block) (payload : List Byte) (s : State) (hlc : s.lc = .usable)
    (hlen : payload.length = 8) :
    dataCommand g payload s = .next (respondOk (bytesOfBlock (g s.rk (inputBlock payload))) s) := by
  rcases dataCommand_cases g payload s with ⟨h, _⟩ | ⟨_, h, _⟩ | ⟨_, _, h⟩
  · simp [hlc] at h
  · exact absurd hlen h
  · exact h

/-- Settles O31: the cases of a data command; a decryption and an encryption under equal schedules cancel. -/
theorem computeEncryptsDecryptsEncrypts : Obligations.ComputeEncryptsDecryptsEncrypts := by
  refine fun s payload =>
    ⟨dataCommand_of_empty computeBlock payload s, dataCommand_of_wrong_length computeBlock payload s, ?_⟩
  rintro hlc hlen _ _ _ rfl rfl rfl
  rw [← inputBlock_eq_be payload hlen]
  refine ⟨dataCommand_of_block computeBlock payload s hlc hlen, fun h12 => ?_, fun h23 => ?_⟩
  · rw [h12, desDecrypt_desEncrypt]
  · rw [h23, desEncrypt_desDecrypt]

/-- A state at the end of a command shows its response. -/
theorem next_ended_inj (s : State) (resp resp' : Option Response) :
    (.next (s.ended resp) : Outcome) = .next (s.ended resp') ↔ resp = resp' := by
  simp [State.ended]

/-- In USABLE, COMPUTE of a block answers a given 8-byte payload for one block only (R135). -/
theorem execCompute_eq_iff (s : State) (x : Block) (payload : List Byte) (hlc : s.lc = .usable) (hlen : payload.length = 8) :
    execCompute (bytesOfBlock x) s = .next (s.ended (some { status := statusOk, payload := payload })) ↔
      x = invertBlock s.rk (inputBlock payload) := by
  rw [execCompute, dataCommand_of_block _ _ s hlc (length_bytesOfBlock x), inputBlock_bytesOfBlock, respondOk_eq_ended,
    next_ended_inj, Option.some_inj, Response.mk.injEq, bytesOfBlock_eq_iff _ payload hlen, computeBlock_eq_iff]
  exact and_iff_right rfl

/-- Settles O32: the cases of a data command, and the preimage under COMPUTE's transform. -/
theorem invertDecryptsEncryptsDecrypts : Obligations.InvertDecryptsEncryptsDecrypts := by
  refine fun s payload =>
    ⟨dataCommand_of_empty invertBlock payload s, dataCommand_of_wrong_length invertBlock payload s, ?_⟩
  rintro hlc hlen _ _ _ rfl rfl rfl
  rw [← inputBlock_eq_be payload hlen]
  exact ⟨dataCommand_of_block invertBlock payload s hlc hlen, fun x => execCompute_eq_iff s x payload hlc hlen⟩

/-- Two data commands whose transforms undo each other, one after the other on an 8-byte payload, give it back. -/
theorem dataCommand_round_trip (g g' : Store → Block → Block) (hinv : ∀ rk b, g' rk (g rk b) = b) (s : State)
    (payload : List Byte) (hlc : s.lc = .usable) (hlen : payload.length = 8) :
    ∃ t u out, dataCommand g payload s = .next t ∧ t.resp = some { status := statusOk, payload := out } ∧
      dataCommand g' out t = .next u ∧ u.resp = some { status := statusOk, payload := payload } := by
  refine ⟨_, _, _, dataCommand_of_block g payload s hlc hlen, respondOk_resp _ _,
    dataCommand_of_block g' _ _ hlc (length_bytesOfBlock _), ?_⟩
  rw [respondOk_resp, respondOk_rk, inputBlock_bytesOfBlock, hinv, bytesOfBlock_inputBlock payload hlen]

/-- Settles O37: the transforms undo each other, and a data command leaves LC and RK. -/
theorem computeAndInvertRoundTrip : Obligations.ComputeAndInvertRoundTrip := fun s payload hlc hlen =>
  ⟨dataCommand_round_trip computeBlock invertBlock invertBlock_computeBlock s payload hlc hlen,
    dataCommand_round_trip invertBlock computeBlock computeBlock_invertBlock s payload hlc hlen⟩

/-- Settles O39: the response is a function of LC, RK and the payload, and the state left has the same LC and RK. -/
theorem dataCommandsArePure : Obligations.DataCommandsArePure := by
  intro s s' payload hlc hrk i hi
  obtain ⟨g, hg⟩ := exec_eq_ended_of_data payload i hi
  refine ⟨_, _, _, hg s, hg s', hg _, ?_, rfl, rfl⟩
  exact congrArg some (by rw [hlc, hrk])

/-- The schedules of a derived store (R92). -/
theorem schedule_deriveStore (key : List Byte) (ks : SchedNo) : schedule (deriveStore key) ks = ksDerive (subKey key ks) := by
  cases ks <;> rfl

/-- With one schedule thrice, COMPUTE's transform is one encryption (R139). -/
theorem computeBlock_of_equal_schedules (rk : Store) (sched : Schedule) (h : ∀ ks, schedule rk ks = sched) (b : Block) :
    computeBlock rk b = desEncrypt sched b := by
  rw [computeBlock, h, h, h, desDecrypt_desEncrypt]

/-- With one schedule thrice, INVERT's transform is one decryption (R139). -/
theorem invertBlock_of_equal_schedules (rk : Store) (sched : Schedule) (h : ∀ ks, schedule rk ks = sched) (b : Block) :
    invertBlock rk b = desDecrypt sched b := by
  rw [invertBlock, h, h, h, desEncrypt_desDecrypt]

/-- Settles O38: schedules are parity-blind, so the derived store holds one schedule thrice. -/
theorem equalSubKeysGiveSingleDes : Obligations.EqualSubKeysGiveSingleDes := by
  intro s t key payload k hlc hkey hlen hparity ht
  have hend : constructed key s = t := Host.Outcome.next.inj ((execConstruct_of_key key s hlc hkey).symm.trans ht)
  have husable : t.lc = .usable := hend ▸ rfl
  have hsched (ks : SchedNo) : schedule t.rk ks = ksDerive k := by
    rw [← hend, ← schedulesAreParityBlind _ k (hparity ks)]
    exact schedule_deriveStore key ks
  have hcompute := dataCommand_of_block computeBlock payload t husable hlen
  have hinvert := dataCommand_of_block invertBlock payload t husable hlen
  rw [computeBlock_of_equal_schedules _ _ hsched] at hcompute
  rw [invertBlock_of_equal_schedules _ _ hsched] at hinvert
  exact ⟨⟨_, hcompute, respondOk_resp _ _⟩, ⟨_, hinvert, respondOk_resp _ _⟩⟩

/-- DESTROY with a payload (R136, R155). -/
theorem execDestroy_of_payload (payload : List Byte) (s : State) (hlen : payload.length ≠ 0) :
    execDestroy payload s = .next (raise .illegalCommand s) := by
  rcases execDestroy_cases payload s with ⟨_, h⟩ | ⟨h, _⟩
  · exact h
  · exact absurd h hlen

/-- DESTROY without a payload (R136). -/
theorem execDestroy_of_no_payload (payload : List Byte) (s : State) (hlen : payload.length = 0) :
    execDestroy payload s = .next (respondOk [] (dropEngine s)) := by
  rcases execDestroy_cases payload s with ⟨h, _⟩ | ⟨_, h⟩
  · exact absurd hlen h
  · exact h

/-- Settles O33: the two cases of DESTROY; a store whose words are all zero is the zero store. -/
theorem destroyZeroesTheStore : Obligations.DestroyZeroesTheStore := by
  refine fun s payload => ⟨execDestroy_of_payload payload s, fun hlen => ?_⟩
  have hzero (ks : SchedNo) (j : Fin 16) : readRk (respondOk [] (dropEngine s)) ks j = 0 := readRk_zeroStore _ ks j rfl
  refine ⟨_, execDestroy_of_no_payload payload s hlen, hzero, rfl, fun h => ?_⟩
  exact rk_eq_of_readRk _ s fun ks j => (hzero ks j).trans (h ks j).symm

end Sys2Proof.Machine

/-! PROOFS. COMPUTE and INVERT pass by pass (R130 to R132, log 1). -/

namespace Sys2Proof.Machine

/-- Pass p of the command is a pass of DES.ENC or DES.DEC whose transform is `f` (R131, R132). -/
def PassAt (job : Job) (p : BitVec 2) (f : Store → Block → Block) : Prop :=
  ∃ e i, (∀ n, microFetch job p n = some e) ∧ decode e = .ok i ∧
    ∀ s, ∃ keys, exec i s = .next (runPass keys s) ∧ finishPass (rounds keys s.blk) = f s.rk s.blk

/-- A descriptor that decodes to DES.ENC makes an encryption pass (R118). -/
theorem passAt_of_desEnc (job : Job) (p : BitVec 2) (d : BitVec 3) (ks : SchedNo)
    (hfetch : ∀ n, microFetch job p n = some (.pass d)) (hdec : decodePass d = .ok (.desEnc ks)) :
    PassAt job p fun rk => desEncrypt (schedule rk ks) :=
  ⟨.pass d, .desEnc ks, hfetch, hdec, fun _ => ⟨_, rfl, rfl⟩⟩

/-- A descriptor that decodes to DES.DEC makes a decryption pass (R119). -/
theorem passAt_of_desDec (job : Job) (p : BitVec 2) (d : BitVec 3) (ks : SchedNo)
    (hfetch : ∀ n, microFetch job p n = some (.pass d)) (hdec : decodePass d = .ok (.desDec ks)) :
    PassAt job p fun rk => desDecrypt (schedule rk ks) :=
  ⟨.pass d, .desDec ks, hfetch, hdec, fun _ => ⟨_, rfl, rfl⟩⟩

/-- The invariant of a data command pass by pass: the command began in `s₀`, pass p is next, BLK holds `b`, and but for the
transients nothing has changed. -/
structure BeforePass (s₀ : State) (job : Job) (p : BitVec 2) (b : Block) (s : State) : Prop where
  busy : s.busy = some job
  position : s.p = p
  blk : s.blk = b
  resp : s.resp = none
  frame : s.ended none = s₀.ended none

/-- A pass changes transients only (R117). -/
theorem ended_runPass (keys : List RoundKey) (s : State) (resp : Option Response) :
    (runPass keys s).ended resp = s.ended resp := rfl

/-- States that agree but for the transients and the response are alike at the end of a command. -/
theorem ended_congr (s s' : State) (resp : Option Response) (h : s.ended none = s'.ended none) :
    s.ended resp = s'.ended resp :=
  (congrArg (State.ended · resp) h :)

/-- After a pass that is not the last, the next pass (R132). -/
theorem advancePass_of_ne (s : State) (hp : s.p ≠ 2) : advancePass s = { s with p := s.p + 1, n := 0 } := if_neg hp

/-- After the last pass, the end of the command (R132). -/
theorem advancePass_of_last (s : State) (hp : s.p = 2) : advancePass s = finishTransform s := if_pos hp

section

variable {s₀ : State} {job : Job} (hjob : advance job = advancePass) (hr : s₀.inbox.head? ≠ some .reset)
include hjob hr

/-- The pass that is next is executed, and the sequencer advances. -/
theorem step_of_beforePass (p : BitVec 2) (b : Block) (f : Store → Block → Block) (hf : PassAt job p f) (s : State)
    (h : BeforePass s₀ job p b s) :
    ∃ keys, finishPass (rounds keys s.blk) = f s₀.rk b ∧ step s = .next (deliver (advancePass (runPass keys s))) := by
  obtain ⟨hbusy, rfl, rfl, _, hframe⟩ := h
  obtain ⟨e, i, hfetch, hdec, hpass⟩ := hf
  obtain ⟨keys, hexec, hblk⟩ := hpass s
  have hrk : s.rk = s₀.rk := (congrArg State.rk hframe :)
  have hinbox : s.inbox = s₀.inbox := (congrArg State.inbox hframe :)
  refine ⟨keys, hrk ▸ hblk, ?_⟩
  rw [step_of_busy s job hbusy (hinbox ▸ hr), stepMicro_of_decode job s e i (hfetch s.n) hdec, hexec, mapNext_next, hjob]

/-- A pass that is not the last leaves the invariant at the next pass, with the transformed block in BLK (R132). -/
theorem step_of_pass_before_last (p : BitVec 2) (b : Block) (f : Store → Block → Block) (hf : PassAt job p f) (hp : p ≠ 2)
    (s : State) (h : BeforePass s₀ job p b s) :
    ∃ t, step s = .next t ∧ BeforePass s₀ job (p + 1) (f s₀.rk b) t := by
  obtain ⟨keys, hblk, hstep⟩ := step_of_beforePass hjob hr p b f hf s h
  have hnot : (runPass keys s).p ≠ 2 := h.position.trans_ne hp
  rw [advancePass_of_ne _ hnot, deliver_of_idle] at hstep
  · exact ⟨_, hstep, h.busy, congrArg (· + 1) h.position, hblk, h.resp, h.frame⟩
  · exact h.resp

/-- The last pass ends the command with the transformed block, and nothing else has changed since it began (R134, R135). -/
theorem step_of_last_pass (b : Block) (f : Store → Block → Block) (hf : PassAt job 2 f) (s : State)
    (h : BeforePass s₀ job 2 b s) :
    step s = .next (deliver (respondOk (bytesOfBlock (f s₀.rk b)) s₀)) := by
  obtain ⟨keys, hblk, hstep⟩ := step_of_beforePass hjob hr 2 b f hf s h
  rw [hstep, advancePass_of_last (runPass keys s) h.position, finishTransform, runPass_blk, hblk, respondOk_eq_ended,
    respondOk_eq_ended, ended_runPass, ended_congr s s₀ _ h.frame]

/-- Three passes run a data command to its end, from BLK through their transforms in order. -/
theorem run_three_passes (b : Block) (f₀ f₁ f₂ : Store → Block → Block) (hf₀ : PassAt job 0 f₀) (hf₁ : PassAt job 1 f₁)
    (hf₂ : PassAt job 2 f₂) (s : State) (h : BeforePass s₀ job 0 b s) :
    (Sys2Proof.core.run 3 s : Outcome) =
      .next (deliver (respondOk (bytesOfBlock (f₂ s₀.rk (f₁ s₀.rk (f₀ s₀.rk b)))) s₀)) := by
  obtain ⟨t, hst, ht⟩ := step_of_pass_before_last hjob hr 0 b f₀ hf₀ (by decide) s h
  obtain ⟨u, htu, hu⟩ := step_of_pass_before_last hjob hr 1 _ f₁ hf₁ (by decide) t ht
  have hlast := step_of_last_pass hjob hr _ f₂ hf₂ u hu
  rw [run_succ_of_next 2 s t hst, run_succ_of_next 1 t u htu, run_succ_of_next 0 u _ hlast, run_zero]

end

/-- The state in which a data command starts is before its first pass, its payload's block in BLK (R132). -/
theorem beforePass_accept (s : State) (payload : List Byte) (h : s.resp = none) :
    BeforePass s .compute 0 (inputBlock payload) (accept .compute payload s) ∧
      BeforePass s .invert 0 (inputBlock payload) (accept .invert payload s) :=
  ⟨⟨rfl, rfl, rfl, h, rfl⟩, ⟨rfl, rfl, rfl, h, rfl⟩⟩

/-- Settles O53: each row of PASS composes to its command's transform. -/
theorem threePassesCompleteADataCommand : Obligations.ThreePassesCompleteADataCommand := by
  intro s payload hlc hlen hresp hr
  obtain ⟨hcompute, hinvert⟩ := beforePass_accept s payload hresp
  constructor
  · have hexec : exec (.compute payload) s = _ := dataCommand_of_block computeBlock payload s hlc hlen
    have h₀ := passAt_of_desEnc .compute 0 0b001 .k1 (fun _ => rfl) rfl
    have h₁ := passAt_of_desDec .compute 1 0b110 .k2 (fun _ => rfl) rfl
    have h₂ := passAt_of_desEnc .compute 2 0b011 .k3 (fun _ => rfl) rfl
    rw [hexec, mapNext_next, computeBlock]
    exact run_three_passes rfl hr _ _ _ _ h₀ h₁ h₂ _ hcompute
  · have hexec : exec (.invert payload) s = _ := dataCommand_of_block invertBlock payload s hlc hlen
    have h₀ := passAt_of_desDec .invert 0 0b111 .k3 (fun _ => rfl) rfl
    have h₁ := passAt_of_desEnc .invert 1 0b010 .k2 (fun _ => rfl) rfl
    have h₂ := passAt_of_desDec .invert 2 0b101 .k1 (fun _ => rfl) rfl
    rw [hexec, mapNext_next, invertBlock]
    exact run_three_passes rfl hr _ _ _ _ h₀ h₁ h₂ _ hinvert

end Sys2Proof.Machine

/-! PROOFS. The answer to a frame as a function (R141, R159): its status by the order of the checks, its payload, and the state
that the command leaves; and what follows for a fault (R157) and for confidentiality (R166). -/

namespace Sys2Proof.Machine

/-- The checks on a CONSTRUCT: lifecycle, then length (R159). -/
theorem expectedStatus_construct (lc : Lifecycle) (len : Nat) :
    expectedStatus lc 0x01 len =
      if lc = .usable then faultCode .alreadyConstructed else if len ≠ 24 then faultCode .invalidKeyLength else statusOk := by
  simp [expectedStatus, faultCode, statusOk]

/-- The checks on a data command: lifecycle, then length (R159). -/
theorem expectedStatus_data (lc : Lifecycle) (op : Byte) (len : Nat) (h : op = 0x02 ∨ op = 0x03) :
    expectedStatus lc op len =
      if lc = .empty then faultCode .notUsable else if len ≠ 8 then faultCode .invalidInputLength else statusOk := by
  rcases h with rfl | rfl <;> simp [expectedStatus, faultCode, statusOk]

/-- The check on a DESTROY: length, in either lifecycle state (R159). -/
theorem expectedStatus_destroy (lc : Lifecycle) (len : Nat) :
    expectedStatus lc 0x04 len = if len ≠ 0 then faultCode .illegalCommand else statusOk := by
  simp [expectedStatus, faultCode, statusOk]

/-- The opcode is checked before everything else (R159). -/
theorem expectedStatus_illegal (lc : Lifecycle) (op : Byte) (len : Nat)
    (h : op ≠ 0x01 ∧ op ≠ 0x02 ∧ op ≠ 0x03 ∧ op ≠ 0x04) : expectedStatus lc op len = faultCode .illegalCommand :=
  if_pos h

/-- A data command's response has the status of the first check that fails (R133, R159). -/
theorem dataFrameResponse_status (lc : Lifecycle) (rk : Store) (f : Frame) (hop : f.op = 0x02 ∨ f.op = 0x03) :
    (dataFrameResponse lc rk f).status = expectedStatus lc f.op f.payload.length := by
  rw [expectedStatus_data lc f.op _ hop, dataFrameResponse, dataResponse]
  split_ifs <;> rfl

/-- A data command's response carries a block only when every check passed (R157). -/
theorem dataResponse_payload_of_fault (g : Store → Block → Block) (payload : List Byte) (lc : Lifecycle) (rk : Store)
    (h : (dataResponse g payload lc rk).status ≠ statusOk) : (dataResponse g payload lc rk).payload = [] := by
  unfold dataResponse at h ⊢
  split_ifs at h ⊢
  · rfl
  · rfl
  · exact absurd rfl h

/-- The response to a frame: the status by the order of the checks, and the payload of a data command (R64, R159). -/
def frameResponse (lc : Lifecycle) (rk : Store) (f : Frame) : Response :=
  { status := expectedStatus lc f.op f.payload.length,
    payload := if f.op = 0x02 ∨ f.op = 0x03 then (dataFrameResponse lc rk f).payload else [] }

/-- The state with what a frame's command does to LC and RK: a CONSTRUCT or a DESTROY whose checks pass changes them (R25). -/
def afterFrame (f : Frame) (s : State) : State :=
  if f.op = 0x01 ∧ expectedStatus s.lc f.op f.payload.length = statusOk then
    { s with rk := deriveStore f.payload, lc := .usable }
  else if f.op = 0x04 ∧ expectedStatus s.lc f.op f.payload.length = statusOk then dropEngine s
  else s

/-- A frame whose checks fail changes neither LC nor RK (R157). -/
theorem afterFrame_of_fault (f : Frame) (s : State) (h : expectedStatus s.lc f.op f.payload.length ≠ statusOk) :
    afterFrame f s = s :=
  (if_neg fun hc => h hc.2).trans (if_neg fun hd => h hd.2)

/-- A command other than CONSTRUCT and DESTROY changes neither LC nor RK (R25). -/
theorem afterFrame_of_ne (f : Frame) (s : State) (h1 : f.op ≠ 0x01) (h4 : f.op ≠ 0x04) : afterFrame f s = s :=
  (if_neg fun h => h1 h.1).trans (if_neg fun h => h4 h.1)

/-- A command takes no response from the host's side. -/
@[simp] theorem afterFrame_sent (f : Frame) (s : State) : (afterFrame f s).sent = s.sent := by
  unfold afterFrame
  split_ifs <;> rfl

/-- The lifecycle that a frame leaves does not depend on the store (R166). -/
theorem afterFrame_lc_of_rk (f : Frame) (s : State) (rk' : Store) :
    (afterFrame f { s with rk := rk' }).lc = (afterFrame f s).lc := by
  unfold afterFrame
  split_ifs <;> rfl

/-- A fault's response carries no payload (R157). -/
theorem frameResponse_payload_of_fault (lc : Lifecycle) (rk : Store) (f : Frame)
    (h : expectedStatus lc f.op f.payload.length ≠ statusOk) : (frameResponse lc rk f).payload = [] := by
  unfold frameResponse
  by_cases hop : f.op = 0x02 ∨ f.op = 0x03
  · rw [← dataFrameResponse_status lc rk f hop] at h
    exact (if_pos hop).trans (dataResponse_payload_of_fault _ _ lc rk h)
  · exact if_neg hop

/-- Only the response to a successful data command carries a payload (R64). -/
theorem frameResponse_of_not_data (lc : Lifecycle) (rk : Store) (f : Frame)
    (h : ¬ (expectedStatus lc f.op f.payload.length = statusOk ∧ (f.op = 0x02 ∨ f.op = 0x03))) :
    frameResponse lc rk f = { status := expectedStatus lc f.op f.payload.length, payload := [] } := by
  have hpayload : (frameResponse lc rk f).payload = [] := by
    by_cases hop : f.op = 0x02 ∨ f.op = 0x03
    · exact frameResponse_payload_of_fault lc rk f fun hok => h ⟨hok, hop⟩
    · exact if_neg hop
  exact congrArg (Response.mk _) hpayload

/-- A frame that can be framed is answered by its response, in the state that its command leaves (R141, R159). -/
theorem stepFrame_eq_afterFrame (cfg : Config.Params) (f : Frame) (s : State) (hf : f.WellFormed cfg) :
    stepFrame f s cfg = .next (deliver ((afterFrame f s).ended (some (frameResponse s.lc s.rk f)))) := by
  by_cases hdata : f.op = 0x02 ∨ f.op = 0x03
  · have hresp : frameResponse s.lc s.rk f = dataFrameResponse s.lc s.rk f := by
      rw [frameResponse, if_pos hdata, ← dataFrameResponse_status s.lc s.rk f hdata]
    have hafter : afterFrame f s = s :=
      afterFrame_of_ne f s (fun h => by simp [h] at hdata) (fun h => by simp [h] at hdata)
    rw [stepFrame_of_data cfg f s hf hdata, hresp, hafter]
  rw [frameResponse_of_not_data s.lc s.rk f fun h => hdata h.2]
  rcases decodeFrame_cases cfg f hf with ⟨hop, hdec⟩ | ⟨hop, _⟩ | ⟨hop, _⟩ | ⟨hop, hdec⟩ | ⟨hop, hdec⟩
  · rw [stepFrame_of_decode cfg f s _ hdec, exec, afterFrame, hop, expectedStatus_construct]
    rcases execConstruct_cases f.payload s with ⟨hlc, h⟩ | ⟨hlc, hlen, h⟩ | ⟨hlc, hlen, h⟩
    · simp [h, hlc, raise_eq_ended, faultCode, statusOk]
    · simp [h, hlc, hlen, raise_eq_ended, faultCode, statusOk]
    · simp [h, hlc, hlen, respondOk_eq_ended]
  · exact absurd (.inl hop) hdata
  · exact absurd (.inr hop) hdata
  · rw [stepFrame_of_decode cfg f s _ hdec, exec, afterFrame, hop, expectedStatus_destroy]
    rcases execDestroy_cases f.payload s with ⟨hlen, h⟩ | ⟨hlen, h⟩
    · simp [h, hlen, raise_eq_ended, faultCode, statusOk]
    · simp [h, hlen, respondOk_eq_ended]
  · have ⟨h1, _, _, h4⟩ := hop
    rw [stepFrame_of_illegal cfg f s hdec, afterFrame_of_ne f s h1 h4, expectedStatus_illegal _ _ _ hop, raise_eq_ended]

/-- An idle core takes the frame that is next and answers it (R50, R141). -/
theorem step_of_nextFrame (s : State) (f : Frame) (rest : List HostEvent) (hs : s.NextFrame f rest) :
    step s = .next (deliver ((afterFrame f { s with inbox := rest }).ended (some (frameResponse s.lc s.rk f)))) :=
  (stepWith_of_frame _ s f rest hs.idle hs.inbox).trans (stepFrame_eq_afterFrame _ f _ hs.wf)

/-- The answer to a frame goes to the host after those it has taken (R60). -/
theorem sent_of_answered (f : Frame) (s : State) (r : Response) :
    (deliver ((afterFrame f s).ended (some r))).sent = s.sent ++ [r] := by
  rw [deliver_sent]
  exact congrArg (· ++ [r]) (afterFrame_sent f s)

/-- Settles O34: the response to a frame has the status of the first check that fails. -/
theorem firstFailingCheckIsReported : Obligations.FirstFailingCheckIsReported := fun s f rest hs _ =>
  ⟨_, _, step_of_nextFrame s f rest hs, sent_of_answered f _ _⟩

/-- Settles O35: the checks failed, so the command changed neither LC nor RK and its response has no payload. -/
theorem faultingCommandHasNoEffect : Obligations.FaultingCommandHasNoEffect := by
  intro s t f rest r hs _ hstep hsent hstatus
  obtain rfl := Host.Outcome.next.inj ((step_of_nextFrame s f rest hs).symm.trans hstep)
  obtain rfl : frameResponse s.lc s.rk f = r := by
    rw [sent_of_answered] at hsent
    exact List.singleton_inj.mp (List.append_cancel_left hsent)
  refine ⟨frameResponse_payload_of_fault s.lc s.rk f hstatus, ?_⟩
  rw [afterFrame_of_fault f { s with inbox := rest } hstatus, deliver_of_resp _ _ rfl]
  rfl

/-- Settles O41: without a data command's payload, the response is a function of LC and the frame. -/
theorem responsesHideTheStore : Obligations.ResponsesHideTheStore := by
  intro s rk' f rest hs _ hhide
  have hs' : ({ s with rk := rk' } : State).NextFrame f rest := ⟨hs.idle, hs.inbox, hs.wf⟩
  refine ⟨_, _, step_of_nextFrame s f rest hs, step_of_nextFrame _ f rest hs', ?_, ?_⟩
  · rw [sent_of_answered, sent_of_answered, frameResponse_of_not_data _ _ f hhide, frameResponse_of_not_data _ _ f hhide]
  · rw [deliver_lc, deliver_lc]
    exact (afterFrame_lc_of_rk f { s with inbox := rest } rk').symm

end Sys2Proof.Machine

/-! PROOFS. Reset (R35, R170), the command it cuts short (R171), and that every host action between commands has a result
(R176). -/

namespace Sys2Proof.Machine

/-- The reset input leaves the state after reset, with the host's side as it was (R35, R170). -/
theorem assertReset_eq_reset (s : State) : assertReset s = { State.reset with inbox := s.inbox, sent := s.sent } := rfl

/-- Reset, where it is next, is taken before anything else (R170). -/
theorem step_of_reset (s : State) (rest : List HostEvent) (hi : s.inbox = .reset :: rest) :
    step s = .next { State.reset with inbox := rest, sent := s.sent } :=
  (stepWith_of_reset _ s rest hi).trans (congrArg Host.Outcome.next (assertReset_eq_reset { s with inbox := rest }))

/-- A frame cut short on an idle core is as the reset input (R171). -/
theorem step_of_cutFrame (s : State) (f : Frame) (rest : List HostEvent) (hb : s.busy = none)
    (hi : s.inbox = .cutFrame f :: rest) (hf : f.WellFormed) :
    step s = .next { State.reset with inbox := rest, sent := s.sent } := by
  rw [step, stepWith_of_cutFrame _ s f rest hb hi, stepCutFrame_of_wellFormed _ f _ hf, assertReset_eq_reset]

/-- Settles O52, by what is next on an idle core: nothing, a reset, a frame, or a frame cut short. -/
theorem everyHostActionIsDefined : Obligations.EveryHostActionIsDefined := by
  intro s hb hpossible
  match hi : s.inbox with
  | [] => rw [step, stepWith_of_nothing _ s hb hi, goesOn]
  | .reset :: rest => rw [step_of_reset s rest hi, goesOn]
  | .frame f :: rest =>
    have hf : f.WellFormed := hpossible (.frame f) (by simp [hi])
    rw [step_of_nextFrame s f rest ⟨hb, hi, hf⟩, goesOn]
  | .cutFrame f :: rest =>
    have hf : f.WellFormed := hpossible (.cutFrame f) (by simp [hi])
    rw [step_of_cutFrame s f rest hb hi hf, goesOn]

/-- Settles O47: the state that reset leaves, whose store is the zero store. -/
theorem resetClearsTheCore : Obligations.ResetClearsTheCore := fun s rest hi =>
  ⟨_, step_of_reset s rest hi, fun ks j => readRk_zeroStore _ ks j rfl, rfl⟩

/-- Settles O48: the frame cut short is as a reset, and a reset does not look at what is in execution. -/
theorem abandonedCommandLeavesResetState : Obligations.AbandonedCommandLeavesResetState := fun s rest =>
  ⟨fun f hb hi hf => step_of_cutFrame s f rest hb hi hf, fun _ _ hi => step_of_reset s rest hi⟩

end Sys2Proof.Machine
